-- ==== Sys2Proof/Word.lean ====
section
/-! DEFINITION. The word types of the WMO FM operator block (spec files 00_scope.md, 10_state.md,
30_encoding.md): the binary64 value, the command and response words, the three index ranges and the
operator set. Plain names only; every operation on them stands under `Sys2Proof/Machine/`. -/

namespace Sys2Proof

/-- An IEEE 754 binary64 value held as its 64 bits (R12, R64): sign bit 63, exponent bits 62 to 52,
fraction bits 51 to 0. The arithmetic on it is `Sys2Proof/Machine/Float.lean` (R14). -/
abbrev F64 := BitVec 64

/-- One 128-bit command word `CW` (R80), bit 0 least significant (R10). -/
abbrev CommandWord := BitVec 128

/-- One 72-bit response word `RESP` (R90): code in bits 71 to 64, data in bits 63 to 0. -/
abbrev ResponseWord := BitVec 72

/-- `MAX_OPS` of R6. -/
abbrev maxOps : Nat := 36

/-- `NUM_VOICES` of R6. -/
abbrev numVoices : Nat := 132

/-- The most filter units an instantiation may have: `NUM_FILTERS` is 1 to 255 (R7). -/
abbrev maxFilters : Nat := 255

/-- An operator index, 0 to 35 (R12). -/
abbrev Op := Fin maxOps

/-- A voice id, 0 to 131 (R12). -/
abbrev Voice := Fin numVoices

/-- A filter-unit id (R12); an instantiation uses the ids below its `NUM_FILTERS`. -/
abbrev Fid := Fin maxFilters

/-- A set of operators as a 36-bit mask (R24): operator `o` is a member when bit `o` is 1. -/
abbrev OpSet := BitVec maxOps

end Sys2Proof
end

