-- ==== Sys2Proof/Syntax.lean ====
section
/-! DEFINITION. The 23 commands of the block's command port (R80, R84 of 30_encoding.md), one
constructor per row of spec/opcode_table.json. An operand is the command word's field as it stands
(R83): `A` and `B` are 8 bits, `D` is 64 bits; range checks belong to the command (R85). -/

namespace Sys2Proof

/-- A command (R84). -/
inductive Instr where
  /-- 0x01 `TICK`, format N (R150). -/
  | tick
  /-- 0x02 `KEYON voice, frequency`, format AD (R155). -/
  | keyon (voice : BitVec 8) (frequency : F64)
  /-- 0x03 `KEYOFF voice`, format A (R156). -/
  | keyoff (voice : BitVec 8)
  /-- 0x04 `ALLOFF`, format N (R157). -/
  | alloff
  /-- 0x05 `SETGAIN value`, format D (R158). -/
  | setgain (value : F64)
  /-- 0x08 `ENVRD voice, operator`, format AB (R112). -/
  | envrd (voice operator : BitVec 8)
  /-- 0x09 `ENVST voice, operator`, format AB (R113). -/
  | envst (voice operator : BitVec 8)
  /-- 0x0A `VACT voice`, format A (R159). -/
  | vact (voice : BitVec 8)
  /-- 0x10 `FCFG fid, kind`, format AB (R186). -/
  | fcfg (fid kind : BitVec 8)
  /-- 0x11 `FPARAM fid, sel, value`, format ABD (R187). -/
  | fparam (fid sel : BitVec 8) (value : F64)
  /-- 0x12 `CHADDSUM fid`, format A (R171). -/
  | chaddsum (fid : BitVec 8)
  /-- 0x13 `CHADDLINK fid`, format A (R172). -/
  | chaddlink (fid : BitVec 8)
  /-- 0x14 `CHREMOVE fid`, format A (R173). -/
  | chremove (fid : BitVec 8)
  /-- 0x15 `CHSWAP fidA, fidB`, format AB (R174). -/
  | chswap (fidA fidB : BitVec 8)
  /-- 0x16 `CHCLEAR`, format N (R175). -/
  | chclear
  /-- 0x20 `PCLEAR`, format N (R201). -/
  | pclear
  /-- 0x21 `PNOPS n`, format A (R202). -/
  | pnops (count : BitVec 8)
  /-- 0x22 `PCARR o`, format A (R203). -/
  | pcarr (operator : BitVec 8)
  /-- 0x23 `PFBK src, tgt`, format AB (R204). -/
  | pfbk (source target : BitVec 8)
  /-- 0x24 `PMOD m, o`, format AB (R205). -/
  | pmod (modulator target : BitVec 8)
  /-- 0x25 `POPI o, sel, value`, format ABD (R207); `value` is two's complement. -/
  | popi (operator sel : BitVec 8) (value : BitVec 64)
  /-- 0x26 `POPF o, sel, value`, format ABD (R208). -/
  | popf (operator sel : BitVec 8) (value : F64)
  /-- 0x27 `LOADPRESET`, format N (R210). -/
  | loadpreset
  deriving DecidableEq, Repr

end Sys2Proof
end

