-- ==== Sys2Proof/Decode.lean ====
section
/-! DEFINITION. The command encoding (30_encoding.md): the fields of the command word (R81), the formats
(R82), the opcode map (R84), the decoding procedure (R85), total on all 128-bit words, and the encoder
written from the same tables. -/

namespace Sys2Proof

/-! ### Fields (R81) -/

/-- `OP`, bits 127 to 120. -/
def fieldOp (w : CommandWord) : BitVec 8 := w.extractLsb' 120 8

/-- `A`, bits 119 to 112. -/
def fieldA (w : CommandWord) : BitVec 8 := w.extractLsb' 112 8

/-- `B`, bits 111 to 104. -/
def fieldB (w : CommandWord) : BitVec 8 := w.extractLsb' 104 8

/-- `RSV`, bits 103 to 64. -/
def fieldRsv (w : CommandWord) : BitVec 40 := w.extractLsb' 64 40

/-- `D`, bits 63 to 0. -/
def fieldD (w : CommandWord) : BitVec 64 := w.extractLsb' 0 64

/-- The word with the given `OP`, `A`, `B` and `D`, and `RSV` zero (R81). -/
def commandWord (op a b : BitVec 8) (d : BitVec 64) : CommandWord :=
  op ++ a ++ b ++ (0 : BitVec 40) ++ d

/-! ### Formats (R82) -/

/-- The six formats. -/
inductive Format where
  | n
  | a
  | ab
  | d
  | ad
  | abd
  deriving DecidableEq, Repr

/-- Whether every field the format does not use is zero (R82). -/
def unusedZero (f : Format) (a b : BitVec 8) (d : BitVec 64) : Bool :=
  match f with
  | .n => a == 0 && b == 0 && d == 0
  | .a => b == 0 && d == 0
  | .ab => d == 0
  | .d => a == 0 && b == 0
  | .ad => b == 0
  | .abd => true

/-! ### The opcode map (R84) -/

/-- A row of the opcode map: the format, and the command with its operands `A`, `B`, `D`. -/
abbrev Row := Format × (BitVec 8 → BitVec 8 → BitVec 64 → Instr)

/-- The row with an opcode, if there is one (R84, R92). -/
def rowOf (op : BitVec 8) : Option Row :=
  match op.toNat with
  | 0x01 => some (.n, fun _ _ _ => .tick)
  | 0x02 => some (.ad, fun a _ d => .keyon a d)
  | 0x03 => some (.a, fun a _ _ => .keyoff a)
  | 0x04 => some (.n, fun _ _ _ => .alloff)
  | 0x05 => some (.d, fun _ _ d => .setgain d)
  | 0x08 => some (.ab, fun a b _ => .envrd a b)
  | 0x09 => some (.ab, fun a b _ => .envst a b)
  | 0x0A => some (.a, fun a _ _ => .vact a)
  | 0x10 => some (.ab, fun a b _ => .fcfg a b)
  | 0x11 => some (.abd, fun a b d => .fparam a b d)
  | 0x12 => some (.a, fun a _ _ => .chaddsum a)
  | 0x13 => some (.a, fun a _ _ => .chaddlink a)
  | 0x14 => some (.a, fun a _ _ => .chremove a)
  | 0x15 => some (.ab, fun a b _ => .chswap a b)
  | 0x16 => some (.n, fun _ _ _ => .chclear)
  | 0x20 => some (.n, fun _ _ _ => .pclear)
  | 0x21 => some (.a, fun a _ _ => .pnops a)
  | 0x22 => some (.a, fun a _ _ => .pcarr a)
  | 0x23 => some (.ab, fun a b _ => .pfbk a b)
  | 0x24 => some (.ab, fun a b _ => .pmod a b)
  | 0x25 => some (.abd, fun a b d => .popi a b d)
  | 0x26 => some (.abd, fun a b d => .popf a b d)
  | 0x27 => some (.n, fun _ _ _ => .loadpreset)
  | _ => none

/-! ### Decoding (R85) -/

/-- Why a word is no command (R85, R222), in the order the procedure finds it. -/
inductive DecodeError where
  /-- `RSV` is not zero. -/
  | reservedNotZero
  /-- `OP` is none of the 23 opcodes. -/
  | unknownOpcode (op : BitVec 8)
  /-- A field the command's format does not use is not zero. -/
  | unusedNotZero (op : BitVec 8)
  deriving DecidableEq, Repr

/-- R85: the command a word stands for, or why it is ILLEGAL. -/
def decode (w : CommandWord) : Except DecodeError Instr :=
  if fieldRsv w ≠ 0 then .error .reservedNotZero
  else
    match rowOf (fieldOp w) with
    | none => .error (.unknownOpcode (fieldOp w))
    | some row =>
      if unusedZero row.1 (fieldA w) (fieldB w) (fieldD w) then
        .ok (row.2 (fieldA w) (fieldB w) (fieldD w))
      else .error (.unusedNotZero (fieldOp w))

/-- The command the decoder reads from an instruction whose `nbits` low bits are `w` and whose other
bits are 0, numbered as spec/opcode_table.json numbers them (R80: one 128-bit word). -/
def decodeTableWord (nbits w : Nat) : Option Instr :=
  match decode (BitVec.ofNat 128 (w % 2 ^ nbits)) with
  | .ok i => some i
  | .error _ => none

/-! ### Encoding (R81, R82, R84) -/

/-- The command word of a command. -/
def encode (i : Instr) : CommandWord :=
  match i with
  | .tick => commandWord 0x01 0 0 0
  | .keyon v f => commandWord 0x02 v 0 f
  | .keyoff v => commandWord 0x03 v 0 0
  | .alloff => commandWord 0x04 0 0 0
  | .setgain g => commandWord 0x05 0 0 g
  | .envrd v o => commandWord 0x08 v o 0
  | .envst v o => commandWord 0x09 v o 0
  | .vact v => commandWord 0x0A v 0 0
  | .fcfg i k => commandWord 0x10 i k 0
  | .fparam i sel x => commandWord 0x11 i sel x
  | .chaddsum i => commandWord 0x12 i 0 0
  | .chaddlink i => commandWord 0x13 i 0 0
  | .chremove i => commandWord 0x14 i 0 0
  | .chswap i j => commandWord 0x15 i j 0
  | .chclear => commandWord 0x16 0 0 0
  | .pclear => commandWord 0x20 0 0 0
  | .pnops n => commandWord 0x21 n 0 0
  | .pcarr o => commandWord 0x22 o 0 0
  | .pfbk src tgt => commandWord 0x23 src tgt 0
  | .pmod m o => commandWord 0x24 m o 0
  | .popi o sel x => commandWord 0x25 o sel x
  | .popf o sel x => commandWord 0x26 o sel x
  | .loadpreset => commandWord 0x27 0 0 0

end Sys2Proof
end

