-- ==== Sys2Proof/Config.lean ====
section
/-! DEFINITION. What an instantiation of the block fixes and the spec leaves open (R7, R8, R9 of
00_scope.md; P1 to P10 and U3 of 93_implementation_defined.md). Each open value is an `opaque`
constant WITHOUT A BODY: nothing in Lean can evaluate it or prove a value of it, so whatever is proved
of the machine holds for every value. The machine never reads these raw constants: it reads them
through `Sys2Proof/Machine/Params.lean`, which admits only the values the spec's constraints admit
(treatment U4 of 93_implementation_defined.md: an ill-formed instantiation is rejected). -/

namespace Sys2Proof

/-- The four arithmetic operations of R14 whose NaN result is left open (U3). -/
inductive FloatOp where
  | add
  | sub
  | mul
  | div
  deriving DecidableEq, Repr

namespace Config

/-- P1: the sample rate `FS` in Hz (R7). -/
opaque sampleRate : Nat

/-- P2: `NUM_FILTERS` (R7). -/
opaque filterCount : Nat

/-- P3: `Q_MIN` (R7). -/
opaque qLow : F64

/-- P3: `Q_MAX` (R7). -/
opaque qHigh : F64

/-- P4: `LEVEL_LUT` (R8). -/
opaque levelTable : Nat → F64

/-- P4: `RATE_SEC` (R8). -/
opaque rateSeconds : Nat → F64

/-- P4: `OUT_LUT` (R8). -/
opaque outputTable : Nat → F64

/-- P4: `FB_LUT` (R8). -/
opaque feedbackTable : Int → F64

/-- P5: `SIN` (R9). -/
opaque sine : F64 → F64

/-- P5: `COS` (R9). -/
opaque cosine : F64 → F64

/-- P5: `ASIN` (R9). -/
opaque arcSine : F64 → F64

/-- P5: `ATAN` (R9). -/
opaque arcTangent : F64 → F64

/-- P5: `COT` (R9). -/
opaque cotangent : F64 → F64

/-- P6: `BP_LOWER(center, depth)` (R123). -/
opaque breakpointLower : F64 → Nat → F64

/-- P7: `BP_UPPER(center, depth)` (R123). -/
opaque breakpointUpper : F64 → Nat → F64

/-- P8: `BP_CURVE(kind, ratio)` (R124). -/
opaque breakpointCurve : Nat → F64 → F64

/-- P9: `DIST_SHAPE(level, x)` (R196). -/
opaque distortionShape : F64 → F64 → F64

/-- P10: the noise draws that no value waiting at the noise input supplies (R46, R135): the `n`-th draw
taken is then this constant at `n`. DESIGN CHOICE, log entry 4. -/
opaque noiseDraw : Nat → F64

/-- U3: the sign and payload of the NaN an arithmetic operation returns for two operands. DESIGN
CHOICE, log entry 5: the same operation on the same operands returns the same NaN. -/
opaque nanResult : FloatOp → F64 → F64 → F64

end Config

/-- One instantiation of everything the spec leaves open, raw (before the constraints of R7, R8, R102,
R123, R124 and R135 are applied by `Sys2Proof/Machine/Params.lean`). Every micro-operation takes one
as its argument, so that what is proved of it holds for all instantiations and a test can supply a
fixture; the machine's own is `openParams`. -/
structure OpenParams where
  /-- P1 -/
  sampleRate : Nat
  /-- P2 -/
  filterCount : Nat
  /-- P3 -/
  qLow : F64
  /-- P3 -/
  qHigh : F64
  /-- P4 -/
  levelTable : Nat → F64
  /-- P4 -/
  rateSeconds : Nat → F64
  /-- P4 -/
  outputTable : Nat → F64
  /-- P4 -/
  feedbackTable : Int → F64
  /-- P5 -/
  sine : F64 → F64
  /-- P5 -/
  cosine : F64 → F64
  /-- P5 -/
  arcSine : F64 → F64
  /-- P5 -/
  arcTangent : F64 → F64
  /-- P5 -/
  cotangent : F64 → F64
  /-- P6 -/
  breakpointLower : F64 → Nat → F64
  /-- P7 -/
  breakpointUpper : F64 → Nat → F64
  /-- P8 -/
  breakpointCurve : Nat → F64 → F64
  /-- P9 -/
  distortionShape : F64 → F64 → F64
  /-- P10 -/
  noiseDraw : Nat → F64
  /-- U3 -/
  nanResult : FloatOp → F64 → F64 → F64

/-- The instantiation the machine runs with: every field is an opaque constant. -/
def openParams : OpenParams where
  sampleRate := Config.sampleRate
  filterCount := Config.filterCount
  qLow := Config.qLow
  qHigh := Config.qHigh
  levelTable := Config.levelTable
  rateSeconds := Config.rateSeconds
  outputTable := Config.outputTable
  feedbackTable := Config.feedbackTable
  sine := Config.sine
  cosine := Config.cosine
  arcSine := Config.arcSine
  arcTangent := Config.arcTangent
  cotangent := Config.cotangent
  breakpointLower := Config.breakpointLower
  breakpointUpper := Config.breakpointUpper
  breakpointCurve := Config.breakpointCurve
  distortionShape := Config.distortionShape
  noiseDraw := Config.noiseDraw
  nanResult := Config.nanResult

end Sys2Proof
end

