-- ==== Sys2Proof/Machine/Float.lean ====
section
/-! DEFINITION. The binary64 arithmetic of R14, R15 and R16 (00_scope.md): the layout of R64, the four
IEEE 754 operations rounded to nearest with ties to even and gradual underflow, the comparisons, and
the helper functions. Each operation converts its operands to exact integers, computes exactly, and
rounds once at the end (R14: no fused operation, no wider intermediate). -/

namespace Sys2Proof.Machine

/-! ### The layout (R64) -/

/-- Bit 63, the sign. -/
def signOf (x : F64) : Bool := x.msb

/-- Bits 62 to 0: the value without its sign. -/
def magnitudeOf (x : F64) : Nat := x.toNat % 2 ^ 63

/-- Bits 62 to 52, the exponent. -/
def exponentOf (x : F64) : Nat := x.toNat / 2 ^ 52 % 2 ^ 11

/-- Bits 51 to 0, the fraction. -/
def fractionOf (x : F64) : Nat := x.toNat % 2 ^ 52

/-- `x` is a NaN. -/
def isNaN (x : F64) : Bool := exponentOf x == 2047 && fractionOf x != 0

/-- `x` is an infinity. -/
def isInf (x : F64) : Bool := exponentOf x == 2047 && fractionOf x == 0

/-- `finite(x)` of R15: neither NaN nor an infinity. -/
def isFinite (x : F64) : Bool := exponentOf x != 2047

/-- `x` is `+0.0` or `-0.0`. -/
def isZero (x : F64) : Bool := magnitudeOf x == 0

/-- The value whose sign is `neg` and whose other 63 bits are `mag`. -/
def ofSignMagnitude (neg : Bool) (mag : Nat) : F64 :=
  BitVec.ofNat 64 ((if neg then 2 ^ 63 else 0) + mag)

/-- The bits 62 to 0 of an infinity. -/
def infMagnitude : Nat := 2047 * 2 ^ 52

/-- `+0.0`. -/
abbrev posZero : F64 := 0x0000000000000000#64

/-- `0.5`; the other short literals of the rules follow. -/
abbrev f64Half : F64 := 0x3FE0000000000000#64
abbrev f64One : F64 := 0x3FF0000000000000#64
abbrev f64MinusOne : F64 := 0xBFF0000000000000#64
abbrev f64Two : F64 := 0x4000000000000000#64
abbrev f64Five : F64 := 0x4014000000000000#64
abbrev f64Ten : F64 := 0x4024000000000000#64
abbrev f64ThirtyTwo : F64 := 0x4040000000000000#64
abbrev f64Hundred : F64 := 0x4059000000000000#64

/-- `PI` of R16. -/
abbrev f64Pi : F64 := 0x400921FB54442D18#64

/-- `TWO_PI` of R16. -/
abbrev f64TwoPi : F64 := 0x401921FB54442D18#64

/-- `TWO_OVER_PI` of R16. -/
abbrev f64TwoOverPi : F64 := 0x3FE45F306DC9C883#64

/-! ### Exact values

Every finite binary64 value is a whole number of units of `2^-1074`. -/

/-- `|x|` of a finite `x`, in units of `2^-1074`. -/
def unitsOf (x : F64) : Nat :=
  if exponentOf x = 0 then fractionOf x
  else (2 ^ 52 + fractionOf x) * 2 ^ (exponentOf x - 1)

/-- A finite `x` in units of `2^-1074`, with its sign. -/
def signedUnitsOf (x : F64) : Int :=
  if signOf x then -(unitsOf x : Int) else (unitsOf x : Int)

/-- How many units of `2^-1074` make 1.0. -/
def unitsPerOne : Nat := 2 ^ 1074

/-- Rounds the positive quotient `num / den` (in units of `2^-1074`, `den > 0`) to the nearest binary64
magnitude, ties to even, with gradual underflow; a magnitude past the largest finite one is infinite
(R14). The last place is `2^k` units, where `k` is 0 for subnormals and the lowest normal binade. -/
def roundMagnitude (num den : Nat) : Nat :=
  let k := (num / den).log2 - 52
  let ulp := den * 2 ^ k
  let m := num / ulp
  let r := num % ulp
  let up := if 2 * r > ulp ∨ (2 * r = ulp ∧ m % 2 = 1) then 1 else 0
  min (k * 2 ^ 52 + m + up) infMagnitude

/-- The rounded value of `± num / den` units; a zero keeps the sign it is given. -/
def roundUnits (neg : Bool) (num den : Nat) : F64 :=
  ofSignMagnitude neg (roundMagnitude num den)

/-- The infinity of a sign. -/
def infinity (neg : Bool) : F64 := ofSignMagnitude neg infMagnitude

/-! ### The NaN an operation returns (U3) -/

/-- `any value` among NaNs (U3 of 93_implementation_defined.md): the open constant where it is a NaN,
else one NaN, so that the result is always a NaN and every NaN is admitted. Log entry 5. -/
def freeNaN (P : OpenParams) (op : FloatOp) (a b : F64) : F64 :=
  if isNaN (P.nanResult op a b) then P.nanResult op a b else 0x7FF8000000000000#64

/-! ### The four operations (R14) -/

/-- The sign flip `-x` (R133, R188): exact on every value. -/
def fNeg (x : F64) : F64 := x ^^^ 0x8000000000000000#64

/-- The exact sum of two finite values, rounded; an exact zero sum of operands of unlike sign is `+0.0`. -/
def addFinite (a b : F64) : F64 :=
  let sum := signedUnitsOf a + signedUnitsOf b
  if sum = 0 then ofSignMagnitude (signOf a && signOf b) 0
  else roundUnits (decide (sum < 0)) sum.natAbs 1

/-- `a + b`, with `op` naming the operation for the free NaN (subtraction is the sum with `-b`). -/
def addWith (P : OpenParams) (op : FloatOp) (a b nanB : F64) : F64 :=
  if isNaN a || isNaN b || (isInf a && isInf b && signOf a != signOf b) then freeNaN P op a nanB
  else if isInf a then a
  else if isInf b then b
  else addFinite a b

/-- IEEE 754 addition (R14). -/
def fAdd (P : OpenParams) (a b : F64) : F64 := addWith P .add a b b

/-- IEEE 754 subtraction (R14). -/
def fSub (P : OpenParams) (a b : F64) : F64 := addWith P .sub a (fNeg b) b

/-- IEEE 754 multiplication (R14). -/
def fMul (P : OpenParams) (a b : F64) : F64 :=
  let neg := signOf a != signOf b
  if isNaN a || isNaN b || (isInf a && isZero b) || (isZero a && isInf b) then freeNaN P .mul a b
  else if isInf a || isInf b then infinity neg
  else roundUnits neg (unitsOf a * unitsOf b) unitsPerOne

/-- IEEE 754 division (R14): a finite nonzero value over zero is an infinity, `0/0` and `inf/inf` are
NaN. -/
def fDiv (P : OpenParams) (a b : F64) : F64 :=
  let neg := signOf a != signOf b
  if isNaN a || isNaN b || (isInf a && isInf b) || (isZero a && isZero b) then freeNaN P .div a b
  else if isInf a || isZero b then infinity neg
  else if isInf b then ofSignMagnitude neg 0
  else roundUnits neg (unitsOf a * unitsPerOne) (unitsOf b)

/-! ### Comparisons (R14) and helpers (R15) -/

/-- The order of the values that are not NaN: both zeros at 0. -/
def orderKey (x : F64) : Int :=
  if signOf x then -(magnitudeOf x : Int) else (magnitudeOf x : Int)

/-- IEEE `<`: false when either side is a NaN. -/
def fLt (a b : F64) : Bool := !isNaN a && !isNaN b && decide (orderKey a < orderKey b)

/-- IEEE `==`: false when either side is a NaN, and `-0.0 == +0.0`. -/
def fEq (a b : F64) : Bool := !isNaN a && !isNaN b && decide (orderKey a = orderKey b)

/-- `a < b` or `a == b`. -/
def fLe (a b : F64) : Bool := fLt a b || fEq a b

/-- `fclamp(x, lo, hi)` of R15; a NaN and `-0.0` between the bounds pass unchanged. -/
def fclamp (x lo hi : F64) : F64 :=
  if fLt x lo then lo else if fLt hi x then hi else x

/-- `SIGN(x)` of R15: a zero and a NaN are returned as they are. -/
def fSign (x : F64) : F64 :=
  if fLt posZero x then f64One else if fLt x posZero then f64MinusOne else x

/-- `I2F(n)` of R15: the nearest binary64 value to a natural number, ties to even. -/
def i2f (n : Nat) : F64 := roundUnits false (n * unitsPerOne) 1

/-- `FLOORNAT(x)` of R15: the floor of a finite `x >= 0`, else 0. -/
def floorNat (x : F64) : Nat :=
  if isFinite x && fLe posZero x then unitsOf x / unitsPerOne else 0

end Sys2Proof.Machine
end

