-- ==== Sys2Proof/Machine/Params.lean ====
section
/-! DEFINITION. The open parameters as the machine reads them: the raw constants of
`Sys2Proof/Config.lean` under the constraints the spec puts on them (R7, R8, R102, R123, R124, R135).
A raw value that meets its constraint is used as it is; one that does not is replaced by a legal one,
so that exactly the legal instantiations remain (U4 of 93_implementation_defined.md: an ill-formed
instantiation is rejected and no rule describes behaviour under it). Log entry 3. -/

namespace Sys2Proof.Machine

/-- `FS` (R7): a positive integer, at least 5. R13 and R31 hold every segment length, so also
`FS div 5`, below `2^32` (DEDUCED, log entry 3). -/
def sampleRate (P : OpenParams) : Nat :=
  if 5 ≤ P.sampleRate ∧ P.sampleRate / 5 < 2 ^ 32 then P.sampleRate else 5

/-- `NUM_FILTERS` (R7): 1 to 255. -/
def numFilters (P : OpenParams) : Nat :=
  if 1 ≤ P.filterCount ∧ P.filterCount ≤ maxFilters then P.filterCount else 1

/-- `0 < Q_MIN <= Q_MAX < +inf` (R7), of the raw bounds. -/
def qBoundsLegal (P : OpenParams) : Bool :=
  isFinite P.qLow && isFinite P.qHigh && fLt posZero P.qLow && fLe P.qLow P.qHigh

/-- `Q_MIN` (R7). -/
def qMin (P : OpenParams) : F64 := if qBoundsLegal P then P.qLow else f64One

/-- `Q_MAX` (R7). -/
def qMax (P : OpenParams) : F64 := if qBoundsLegal P then P.qHigh else f64One

/-! ### The lookup tables (R8) -/

/-- Whether a table of 100 entries never falls as the index rises. -/
def nonDecreasing (table : Nat → F64) : Bool :=
  (List.range 99).all fun i => fLe (table i) (table (i + 1))

/-- Whether a table of 100 entries never rises as the index rises. -/
def nonIncreasing (table : Nat → F64) : Bool :=
  (List.range 99).all fun i => fLe (table (i + 1)) (table i)

/-- `LEVEL_LUT` meets R8: every entry in [0, 1], non-decreasing. -/
def levelTableLegal (P : OpenParams) : Bool :=
  ((List.range 100).all fun i => fLe posZero (P.levelTable i) && fLe (P.levelTable i) f64One) &&
    nonDecreasing P.levelTable

/-- `LEVEL_LUT[i]` (R8), envelope level index to amplitude. -/
def levelLut (P : OpenParams) (i : Nat) : F64 :=
  if i < 100 ∧ levelTableLegal P then P.levelTable i else posZero

/-- The product of R102 whose floor is a segment's length. -/
def segProduct (P : OpenParams) (seconds : F64) : F64 := fMul P seconds (i2f (sampleRate P))

/-- One entry of `RATE_SEC` meets R8 and R102: finite, `>= 0`, and its sample count is below `2^32`. -/
def rateEntryLegal (P : OpenParams) (seconds : F64) : Bool :=
  isFinite seconds && fLe posZero seconds && isFinite (segProduct P seconds) &&
    decide (floorNat (segProduct P seconds) < 2 ^ 32)

/-- `RATE_SEC` meets R8 and R102; the direction of its monotonicity is open (N1). -/
def rateTableLegal (P : OpenParams) : Bool :=
  ((List.range 100).all fun i => rateEntryLegal P (P.rateSeconds i)) &&
    (nonDecreasing P.rateSeconds || nonIncreasing P.rateSeconds)

/-- `RATE_SEC[i]` (R8), envelope speed index to seconds. -/
def rateSec (P : OpenParams) (i : Nat) : F64 :=
  if i < 100 ∧ rateTableLegal P then P.rateSeconds i else posZero

/-- `SEG_SAMPLES[i]` (R102). -/
def segSamples (P : OpenParams) (i : Nat) : Nat :=
  max 1 (floorNat (segProduct P (rateSec P i)))

/-- `PRE_IDLE_SAMPLES = FS div 5` (R102). -/
def preIdleSamples (P : OpenParams) : Nat := sampleRate P / 5

/-- `OUT_LUT[i]` (R8): every entry finite. -/
def outLut (P : OpenParams) (i : Nat) : F64 :=
  if isFinite (P.outputTable i) then P.outputTable i else posZero

/-- `FB_LUT[d]` (R8): every entry finite. -/
def fbLut (P : OpenParams) (d : Int) : F64 :=
  if isFinite (P.feedbackTable d) then P.feedbackTable d else posZero

/-! ### The numeric functions (R9, R123, R124, R196) and the noise draw (R135) -/

/-- `SIN` (R9). -/
def fSin (P : OpenParams) (x : F64) : F64 := P.sine x

/-- `COS` (R9). -/
def fCos (P : OpenParams) (x : F64) : F64 := P.cosine x

/-- `ASIN` (R9). -/
def fAsin (P : OpenParams) (x : F64) : F64 := P.arcSine x

/-- `ATAN` (R9). -/
def fAtan (P : OpenParams) (x : F64) : F64 := P.arcTangent x

/-- `COT` (R9). -/
def fCot (P : OpenParams) (x : F64) : F64 := P.cotangent x

/-- The operands on which R123 constrains the bounds: a finite center above 0, a depth from 1 to 99. -/
def boundsConstrained (center : F64) (depth : Nat) : Bool :=
  isFinite center && fLt posZero center && decide (1 ≤ depth ∧ depth ≤ 99)

/-- `BP_LOWER(center, depth)` (R123): finite and below the center where R123 constrains it. -/
def bpLower (P : OpenParams) (center : F64) (depth : Nat) : F64 :=
  let raw := P.breakpointLower center depth
  if boundsConstrained center depth && !(isFinite raw && fLt raw center) then f64MinusOne else raw

/-- `BP_UPPER(center, depth)` (R123): finite and above the center where R123 constrains it. The stand-in
for an illegal raw value is the next value above the center; above the largest finite center there is
no finite value, so there R123 admits none and the raw value stands (log entry 3). -/
def bpUpper (P : OpenParams) (center : F64) (depth : Nat) : F64 :=
  let raw := P.breakpointUpper center depth
  if boundsConstrained center depth && !(isFinite raw && fLt center raw) && isFinite (center + 1)
  then center + 1 else raw

/-- `BP_CURVE(kind, ratio)` (R124): no NaN for a ratio in [0, 1]. -/
def bpCurve (P : OpenParams) (kind : Nat) (ratio : F64) : F64 :=
  let raw := P.breakpointCurve kind ratio
  if fLe posZero ratio && fLe ratio f64One && isNaN raw then f64One else raw

/-- `DIST_SHAPE(level, x)` (R196). -/
def distShape (P : OpenParams) (level x : F64) : F64 := P.distortionShape level x

/-- A noise value: `x` where it lies in [-1, 1] (R135), else one value that does. -/
def noiseValue (x : F64) : F64 := if fLe f64MinusOne x && fLe x f64One then x else posZero

/-- The `n`-th draw of the open sequence (R135). -/
def noiseDraw (P : OpenParams) (n : Nat) : F64 := noiseValue (P.noiseDraw n)

end Sys2Proof.Machine
end

