-- ==== Sys2Proof/Machine/State.lean ====
section
/-! DEFINITION. The state of the block as plain data: the tuple of R22 (10_state.md), every element at
its width and with its reset value (R24 to R38, R48, R240), and beside it the model's own three fields
(the words waiting at the command port, the response words given, the noise input). -/

namespace Sys2Proof.Machine

/-- Why the machine would stop with a fault. It has NO constructor: no behaviour of this block is a
fault (R220, R232; section 3 of 93_implementation_defined.md), so no step ends in one. Safe. -/
inductive Fault where
  deriving DecidableEq, Repr

/-- Why the model would have no meaning for a command. -/
inductive Refusal where
  /-- Raised by an arm of `exec` whose command has no meaning yet; no arm raises it. Safe. (A command
  the BLOCK refuses, R220, is no refusal of the model: it takes a next state and answers with its
  response code.) -/
  | notModelled (mnemonic : String)
  deriving DecidableEq, Repr

/-- The eleven response codes (R91). -/
inductive Code where
  | ok
  | illegal
  | badIndex
  | badOperand
  | noPreset
  | loadNops
  | loadNoCarrier
  | loadCarrierRange
  | loadEdgeRange
  | loadFbRange
  | loadCycle
  deriving DecidableEq, Repr

/-- The seven envelope states (R29, R100). Their codes are `envCode` of `Sys2Proof/Machine/Flags.lean`;
the code 7 is never written and has no constructor. -/
inductive EnvState where
  | attack
  | decay
  | sustain
  | hold
  | release
  | preIdle
  | idle
  deriving DecidableEq, Repr

/-- One envelope slot `ENV[o][v]` (R29 to R31). -/
structure EnvSlot where
  /-- `state` (R29). -/
  state : EnvState
  /-- `start` (R30). -/
  startAmp : F64
  /-- `end` (R30). -/
  endAmp : F64
  /-- `amp` (R30). -/
  amp : F64
  /-- `pos` (R31), in a 32-bit counter; R13: every reachable value is below `2^32`. -/
  pos : Nat
  /-- `size` (R31), in a 32-bit counter; R13: every reachable value is below `2^32`. -/
  size : Nat
  deriving DecidableEq, Repr

/-- The dynamic state of one operator for one voice (R27 to R31). -/
structure OpSlot where
  /-- `RATE[o][v]` (R27), cycles per sample. -/
  rate : F64
  /-- `BPMUL[o][v]` (R28). -/
  bpMul : F64
  /-- `ENV[o][v]` (R29 to R31). -/
  env : EnvSlot
  deriving DecidableEq, Repr

/-- All state of one voice (R27 to R33): the slots of the 36 operators, `T[v]`, `CACT[v]`, and the
voice's membership in `ACTIVE`. -/
structure VoiceState where
  /-- The slots `[o][v]` of every operator `o` (R23: 36 whatever preset is loaded). -/
  ops : Vector OpSlot maxOps
  /-- `T[v]` (R32), 64 bits. -/
  elapsed : BitVec 64
  /-- `CACT[v][c]` (R33), one bit per operator. -/
  carrierActive : OpSet
  /-- Bit `v` of the 132-bit mask `ACTIVE` (R33). -/
  active : Bool
  deriving DecidableEq, Repr

/-- One operator record `OPP[o]` (R25), each field at the width R25 gives it. -/
structure OpRecord where
  /-- `WAVE`, 0 to 255. -/
  wave : BitVec 8
  /-- `OUTLEVEL`, 0 to 99. -/
  outLevel : BitVec 7
  /-- `FBDEPTH`, signed, -7 to 7. -/
  fbDepth : BitVec 4
  /-- `L_A`, 0 to 99. -/
  levelA : BitVec 7
  /-- `L_D`, 0 to 99. -/
  levelD : BitVec 7
  /-- `L_S`, 0 to 99. -/
  levelS : BitVec 7
  /-- `L_R`, 0 to 99. -/
  levelR : BitVec 7
  /-- `R_A`, 0 to 99. -/
  speedA : BitVec 7
  /-- `R_D`, 0 to 99. -/
  speedD : BitVec 7
  /-- `R_S`, 0 to 99. -/
  speedS : BitVec 7
  /-- `R_R`, 0 to 99. -/
  speedR : BitVec 7
  /-- `RATIO`, finite, 0 to 32. -/
  ratio : F64
  /-- `BP_CENTER`, finite, Hz. -/
  bpCenter : F64
  /-- `BP_LDEPTH`, 0 to 99. -/
  bpLDepth : BitVec 7
  /-- `BP_RDEPTH`, 0 to 99. -/
  bpRDepth : BitVec 7
  /-- `BP_LCURVE`, 0 to 5. -/
  bpLCurve : BitVec 3
  /-- `BP_RCURVE`, 0 to 5. -/
  bpRCurve : BitVec 3
  deriving DecidableEq, Repr

/-- A preset: the active one (R24, R25) or the staged one (R26), which have one shape. -/
structure Preset where
  /-- `N` or `S_N`, 0 to 36; 0 means none. -/
  count : BitVec 6
  /-- `CARR` or `S_CARR`. -/
  carriers : OpSet
  /-- `FB_SRC` or `S_FB_SRC`. -/
  fbSource : BitVec 6
  /-- `FB_TGT` or `S_FB_TGT`. -/
  fbTarget : BitVec 6
  /-- `MOD` or `S_MOD`, the 36 by 36 bit matrix, one column per TARGET: bit `m` of column `o` is 1 when
  the edge `(m, o)` is in the set. -/
  mods : Vector OpSet maxOps
  /-- `OPP` or `S_OPP`. -/
  records : Vector OpRecord maxOps
  deriving DecidableEq, Repr

/-- The four kinds of a filter unit (R35, R89). -/
inductive FilterKind where
  | lowPass
  | highPass
  | bandPass
  | distortion
  deriving DecidableEq, Repr

/-- One filter unit `FU[i]` (R35 to R37). -/
structure FilterUnit where
  /-- `KIND` (R35). -/
  kind : FilterKind
  /-- `FFS` (R35). -/
  ffs : F64
  /-- `FFREQ` (R35). -/
  ffreq : F64
  /-- `FQ` (R35). -/
  fq : F64
  /-- `FLEVEL` (R35). -/
  flevel : F64
  /-- `B0` (R36). -/
  b0 : F64
  /-- `B1` (R36). -/
  b1 : F64
  /-- `B2` (R36). -/
  b2 : F64
  /-- `A1` (R36). -/
  a1 : F64
  /-- `A2` (R36). -/
  a2 : F64
  /-- `X1` (R37). -/
  x1 : F64
  /-- `X2` (R37). -/
  x2 : F64
  /-- `Y1` (R37). -/
  y1 : F64
  /-- `Y2` (R37). -/
  y2 : F64
  deriving DecidableEq, Repr

/-- The two modes of a chain stage (R38): SUM = 0, LINK = 1. -/
inductive ChainMode where
  | sum
  | link
  deriving DecidableEq, Repr

/-- One pair `(mode, fid)` of `CHAIN` (R38). -/
structure Stage where
  /-- The pair's mode. -/
  mode : ChainMode
  /-- The pair's filter unit. -/
  fid : Fid
  deriving DecidableEq, Repr

/-- The state tuple of R22. -/
structure Block where
  /-- The active preset (R24, R25). -/
  active : Preset
  /-- The staged preset (R26). -/
  staged : Preset
  /-- The per-voice and per-operator state of the 132 voices (R27 to R33). -/
  voices : Vector VoiceState numVoices
  /-- `GAIN` (R34). -/
  gain : F64
  /-- The filter units (R35 to R37). State holds the 255 units an instantiation may have; an
  instantiation uses those below its `NUM_FILTERS` and the others keep their reset values (log
  entry 6). -/
  filters : Vector FilterUnit maxFilters
  /-- `CHAIN` (R38), from the head. -/
  chain : List Stage
  deriving DecidableEq, Repr

/-- The noise input as a stream (R11: a free input of the step; R257: consumed in the order of
evaluation). The model's own, log entry 4. -/
structure NoiseInput where
  /-- The values put on the input from outside and not yet drawn, in the order they will be. -/
  waiting : List F64
  /-- How many draws have been taken: the place in the open sequence from which a draw is taken while no
  value waits. -/
  taken : Nat
  deriving DecidableEq, Repr

/-- The machine's state: the block's own (R22) and three fields of the model's. -/
structure State where
  /-- Everything the spec gives the block as state. -/
  block : Block
  /-- The model's own: the command words the host has put on the command port and the block has not
  yet taken, in arrival order (R69, R235). An input, not state of the block (R47). Log entry 1. -/
  inbox : List CommandWord
  /-- The model's own: the response words given so far, oldest first (R90). The block itself keeps none
  (R22, R220). Log entry 2. -/
  outbox : List ResponseWord
  /-- The model's own: the noise input (R11, R135, R257). An input, not state of the block (R46, R242). Log
  entry 4. -/
  noise : NoiseInput
  deriving DecidableEq, Repr

/-! ### Reset (R48, R240) -/

/-- The cold envelope slot (R29 to R31, R110): what `EnvReset` writes. -/
def EnvSlot.reset : EnvSlot :=
  { state := .idle, startAmp := posZero, endAmp := posZero, amp := posZero, pos := 0, size := 1 }

/-- The reset slot of an operator for a voice (R27 to R31). -/
def OpSlot.reset : OpSlot := { rate := posZero, bpMul := posZero, env := EnvSlot.reset }

/-- A voice after reset (R27 to R33). -/
def VoiceState.reset : VoiceState :=
  { ops := Vector.replicate maxOps OpSlot.reset, elapsed := 0, carrierActive := 0, active := false }

/-- The reset record of R25. -/
def OpRecord.reset : OpRecord :=
  { wave := 0, outLevel := 0, fbDepth := 0, levelA := 0, levelD := 0, levelS := 0, levelR := 0,
    speedA := 0, speedD := 0, speedS := 0, speedR := 0, ratio := posZero, bpCenter := posZero,
    bpLDepth := 0, bpRDepth := 0, bpLCurve := 0, bpRCurve := 0 }

/-- The empty preset (R24 to R26). -/
def Preset.reset : Preset :=
  { count := 0, carriers := 0, fbSource := 0, fbTarget := 0, mods := Vector.replicate maxOps 0,
    records := Vector.replicate maxOps OpRecord.reset }

/-- A filter unit after reset (R35 to R37) under the instantiation `P`. -/
def FilterUnit.reset (P : OpenParams) : FilterUnit :=
  { kind := .lowPass, ffs := i2f (sampleRate P), ffreq := posZero,
    fq := fclamp f64One (qMin P) (qMax P), flevel := posZero,
    b0 := f64One, b1 := posZero, b2 := posZero, a1 := posZero, a2 := posZero,
    x1 := posZero, x2 := posZero, y1 := posZero, y2 := posZero }

/-- The block after reset (R48) under the instantiation `P`. -/
def Block.reset (P : OpenParams) : Block :=
  { active := Preset.reset, staged := Preset.reset,
    voices := Vector.replicate numVoices VoiceState.reset, gain := f64One,
    filters := Vector.replicate maxFilters (FilterUnit.reset P), chain := [] }

/-- A noise input on which nothing waits and from which nothing has been drawn. -/
def NoiseInput.start : NoiseInput := { waiting := [], taken := 0 }

/-- The machine after reset under the instantiation `P`, before anything from outside has reached an input:
no command, no response, no noise value (log entries 1, 2 and 4). -/
def resetWith (P : OpenParams) : State :=
  { block := Block.reset P, inbox := [], outbox := [], noise := NoiseInput.start }

/-- The machine right after reset (R48, R240). -/
def State.reset : State := resetWith openParams

end Sys2Proof.Machine
end

