-- ==== Sys2Proof/Machine/Topology.lean ====
section
/-! DEFINITION. The functions of the active topology (R39 of 10_state.md) and the cycle test of R213
(46_preset.md), over the columns of the modulation matrix. -/

namespace Sys2Proof.Machine

/-- The set that holds operator `o` alone. -/
def opBit (o : Op) : OpSet := BitVec.twoPow maxOps o.val

/-- Whether operator `o` is in the set. -/
def inSet (set : OpSet) (o : Op) : Bool := set.getLsbD o.val

/-- The members of a set in ascending order (R11). -/
def members (set : OpSet) : List Op := (List.finRange maxOps).filter (inSet set)

/-- The set of modulators of `o`: every `m` with the edge `(m, o)`. -/
def modSet (pr : Preset) (o : Op) : OpSet := pr.mods[o]

/-- `MODS(o)` of R39: the modulators of `o` in ascending order. -/
def modsOf (pr : Preset) (o : Op) : List Op := members (modSet pr o)

/-- One round of the closure of R39: the set with the modulators of its members added. -/
def reachRound (pr : Preset) (set : OpSet) : OpSet :=
  (members set).foldl (fun acc o => acc ||| modSet pr o) set

/-- `n` rounds of the closure. -/
def reachRounds (pr : Preset) : Nat → OpSet → OpSet
  | 0, set => set
  | n + 1, set => reachRounds pr n (reachRound pr set)

/-- `REACH` of R39: the least set that holds `CARR` and the modulators of each of its members. Each
round that is not the last adds an operator, so 36 rounds reach it. -/
def reach (pr : Preset) : OpSet := reachRounds pr maxOps pr.carriers

/-- Whether `o` may be appended next in R39's procedure: it is in the set to exhaust, not yet appended,
and all its modulators are already appended. -/
def ready (pr : Preset) (set done : OpSet) (o : Op) : Bool :=
  inSet set o && !inSet done o && decide (modSet pr o &&& ~~~done = 0)

/-- The largest operator that may be appended next. -/
def nextReady (pr : Preset) (set done : OpSet) : Option Op :=
  (List.finRange maxOps).reverse.find? (ready pr set done)

/-- R39's procedure over `set`, from the operators already appended. -/
def evalOrderFrom (pr : Preset) (set : OpSet) : Nat → OpSet → List Op
  | 0, _ => []
  | n + 1, done =>
    match nextReady pr set done with
    | none => []
    | some o => o :: evalOrderFrom pr set n (done ||| opBit o)

/-- `EVAL_ORDER` of R39: modulators before their targets, the larger index first among the ready. -/
def evalOrder (pr : Preset) : List Op := evalOrderFrom pr (reach pr) maxOps 0

/-! ### Cycles (R213) -/

/-- Whether the edge `(m, o)` is in the set of columns. -/
def hasEdge (mods : Vector OpSet maxOps) (m o : Op) : Bool := inSet mods[o] m

/-- One round of R213's procedure: the operators of `left` that are still the target of an edge whose
modulator is in `left`. -/
def pruneRound (mods : Vector OpSet maxOps) (left : OpSet) : OpSet :=
  (members left).foldl (fun acc o => if mods[o] &&& left = 0 then acc else acc ||| opBit o) 0

/-- `n` rounds of the deletion. -/
def pruneRounds (mods : Vector OpSet maxOps) : Nat → OpSet → OpSet
  | 0, left => left
  | n + 1, left => pruneRounds mods n (pruneRound mods left)

/-- Whether the modulation edges contain a cycle (R213): some operator is left after the deletions. Each
round that is not the last deletes an operator, so 36 rounds end it. -/
def hasCycle (mods : Vector OpSet maxOps) : Bool :=
  decide (pruneRounds mods maxOps (BitVec.allOnes maxOps) ≠ 0)

end Sys2Proof.Machine
end

