-- ==== Sys2Proof/Machine/Ops.lean ====
section
/-! DEFINITION. The operations every command shares: taking a command word from the command port (R69),
answering on the response port (R90, R91), refusing (R220: what stands in this block in the place of
taking an exception; R231: there is no return from one), and writing one element of a store (R60). -/

namespace Sys2Proof.Machine

/-- What a step ends in. -/
abbrev Result := Host.Outcome State Fault Refusal

/-! ### The two ports -/

/-- The number of a response code (R91). -/
def codeByte : Code → BitVec 8
  | .ok => 0x00
  | .illegal => 0x01
  | .badIndex => 0x02
  | .badOperand => 0x03
  | .noPreset => 0x04
  | .loadNops => 0x10
  | .loadNoCarrier => 0x11
  | .loadCarrierRange => 0x12
  | .loadEdgeRange => 0x13
  | .loadFbRange => 0x14
  | .loadCycle => 0x15

/-- The response word of a code and a data word (R90): code in bits 71 to 64, data in bits 63 to 0. -/
def responseWord (code : Code) (data : BitVec 64) : ResponseWord := codeByte code ++ data

/-- `respond(code, data)` of R11: the command's one response word is given. -/
def respond (code : Code) (data : BitVec 64) (s : State) : State :=
  { s with outbox := s.outbox ++ [responseWord code data] }

/-- `respond(OK, 0)`. -/
def respondOk (s : State) : State := respond .ok 0 s

/-- `refuse(code)` of R11 and R220: the response is the code with data zero, and the block's state is
left as it is (R230). This is the whole of what takes an exception's place: no state is saved, no mode
changes, no handler runs, and the next command is taken as if this one had not been sent. -/
def refuse (code : Code) (s : State) : State := respond code 0 s

/-- The next command word, and the state in which it has been taken from the port (R69). -/
def takeCommand (s : State) : Option (CommandWord × State) :=
  match s.inbox with
  | [] => none
  | w :: rest => some (w, { s with inbox := rest })

/-- `s` with a command word put first on the command port. -/
def withCommand (s : State) (w : CommandWord) : State := { s with inbox := w :: s.inbox }

/-- `s` with values put on the noise input (R11, R135), after those that wait there. -/
def withNoise (s : State) (values : List F64) : State :=
  { s with noise := { s.noise with waiting := s.noise.waiting ++ values } }

/-! ### Reset as an event (R240, R242) -/

/-- Reset applied from outside in any state: every state element takes its value of R48. What is no state
element is left as it is: the words and noise values that wait at the inputs, the responses given, the
place in the open sequence of draws (R242; log entry 11). -/
def resetBlock (P : OpenParams) (s : State) : State := { s with block := Block.reset P }

/-! ### Writing one element of a store -/

/-- The voice store with voice `v` written. -/
def setVoice (v : Voice) (vs : VoiceState) (s : State) : State :=
  { s with block.voices := s.block.voices.set v.val vs }

/-- The whole voice store written. -/
def setVoices (voices : Vector VoiceState numVoices) (s : State) : State :=
  { s with block.voices := voices }

/-- The filter store with unit `i` written. -/
def setFilter (i : Fid) (u : FilterUnit) (s : State) : State :=
  { s with block.filters := s.block.filters.set i.val u }

/-- `CHAIN` written. -/
def setChain (chain : List Stage) (s : State) : State := { s with block.chain := chain }

/-- `GAIN` written. -/
def setGain (gain : F64) (s : State) : State := { s with block.gain := gain }

/-- The staged preset written. -/
def setStaged (pr : Preset) (s : State) : State := { s with block.staged := pr }

/-- The staged record of operator `o` written. -/
def setStagedRecord (o : Op) (r : OpRecord) (s : State) : State :=
  setStaged { s.block.staged with records := s.block.staged.records.set o.val r } s

end Sys2Proof.Machine
end

