-- ==== Sys2Proof/Machine/Operands.lean ====
section
/-! DEFINITION. Every operand form of the command word (R61, R83, R87 to R89, R223, R224): the index
checks that give `BAD_INDEX`, the selector and kind codes, the clamps of the setters, and the real
operand check that gives `BAD_OPERAND`. -/

namespace Sys2Proof.Machine

/-! ### Indices (R61, R223): `none` is `BAD_INDEX` -/

/-- A voice id: below 132. -/
def voiceOf (a : BitVec 8) : Option Voice :=
  if h : a.toNat < numVoices then some ⟨a.toNat, h⟩ else none

/-- An operator index: below 36, whatever the operator count (R200, R223). -/
def opOf (a : BitVec 8) : Option Op :=
  if h : a.toNat < maxOps then some ⟨a.toNat, h⟩ else none

/-- A filter id: below `NUM_FILTERS` (which is at most 255, R7). -/
def fidOf (P : OpenParams) (a : BitVec 8) : Option Fid :=
  if h : a.toNat < numFilters P ∧ a.toNat < maxFilters then some ⟨a.toNat, h.2⟩ else none

/-- An operator count (R202): at most 36. -/
def countOf (a : BitVec 8) : Option (BitVec 6) :=
  if a.toNat ≤ maxOps then some (BitVec.ofNat 6 a.toNat) else none

/-! ### Selectors and kinds (R87, R88, R89): `none` is a reserved code -/

/-- The 15 integer fields of an operator record (R87). -/
inductive IntField where
  | wave
  | outLevel
  | fbDepth
  | levelA
  | levelD
  | levelS
  | levelR
  | speedA
  | speedD
  | speedS
  | speedR
  | bpLDepth
  | bpRDepth
  | bpLCurve
  | bpRCurve
  deriving DecidableEq, Repr

/-- The `POPI` selector codes (R87). -/
def intFieldOf (b : BitVec 8) : Option IntField :=
  match b.toNat with
  | 0 => some .wave
  | 1 => some .outLevel
  | 2 => some .fbDepth
  | 3 => some .levelA
  | 4 => some .levelD
  | 5 => some .levelS
  | 6 => some .levelR
  | 7 => some .speedA
  | 8 => some .speedD
  | 9 => some .speedS
  | 10 => some .speedR
  | 11 => some .bpLDepth
  | 12 => some .bpRDepth
  | 13 => some .bpLCurve
  | 14 => some .bpRCurve
  | _ => none

/-- The clamp domain of an integer field (R87), low and high. -/
def intDomain : IntField → Int × Int
  | .wave => (0, 255)
  | .fbDepth => (-7, 7)
  | .bpLCurve => (0, 5)
  | .bpRCurve => (0, 5)
  | .outLevel => (0, 99)
  | .levelA => (0, 99)
  | .levelD => (0, 99)
  | .levelS => (0, 99)
  | .levelR => (0, 99)
  | .speedA => (0, 99)
  | .speedD => (0, 99)
  | .speedS => (0, 99)
  | .speedR => (0, 99)
  | .bpLDepth => (0, 99)
  | .bpRDepth => (0, 99)

/-- `iclamp(x, lo, hi)` of R13. -/
def iclamp (x lo hi : Int) : Int := if x < lo then lo else if hi < x then hi else x

/-- The record with an integer field written (R66), at the field's width. -/
def storeInt (r : OpRecord) (f : IntField) (x : Int) : OpRecord :=
  match f with
  | .wave => { r with wave := BitVec.ofInt 8 x }
  | .outLevel => { r with outLevel := BitVec.ofInt 7 x }
  | .fbDepth => { r with fbDepth := BitVec.ofInt 4 x }
  | .levelA => { r with levelA := BitVec.ofInt 7 x }
  | .levelD => { r with levelD := BitVec.ofInt 7 x }
  | .levelS => { r with levelS := BitVec.ofInt 7 x }
  | .levelR => { r with levelR := BitVec.ofInt 7 x }
  | .speedA => { r with speedA := BitVec.ofInt 7 x }
  | .speedD => { r with speedD := BitVec.ofInt 7 x }
  | .speedS => { r with speedS := BitVec.ofInt 7 x }
  | .speedR => { r with speedR := BitVec.ofInt 7 x }
  | .bpLDepth => { r with bpLDepth := BitVec.ofInt 7 x }
  | .bpRDepth => { r with bpRDepth := BitVec.ofInt 7 x }
  | .bpLCurve => { r with bpLCurve := BitVec.ofInt 3 x }
  | .bpRCurve => { r with bpRCurve := BitVec.ofInt 3 x }

/-- The integer a field of a record holds: `FBDEPTH` is signed, the others are not (R25). -/
def readInt (r : OpRecord) (f : IntField) : Int :=
  match f with
  | .wave => r.wave.toNat
  | .outLevel => r.outLevel.toNat
  | .fbDepth => r.fbDepth.toInt
  | .levelA => r.levelA.toNat
  | .levelD => r.levelD.toNat
  | .levelS => r.levelS.toNat
  | .levelR => r.levelR.toNat
  | .speedA => r.speedA.toNat
  | .speedD => r.speedD.toNat
  | .speedS => r.speedS.toNat
  | .speedR => r.speedR.toNat
  | .bpLDepth => r.bpLDepth.toNat
  | .bpRDepth => r.bpRDepth.toNat
  | .bpLCurve => r.bpLCurve.toNat
  | .bpRCurve => r.bpRCurve.toNat

/-- The two real fields of an operator record (R88). -/
inductive RealField where
  | ratio
  | bpCenter
  deriving DecidableEq, Repr

/-- The `POPF` selector codes (R88). -/
def realFieldOf (b : BitVec 8) : Option RealField :=
  match b.toNat with
  | 0 => some .ratio
  | 1 => some .bpCenter
  | _ => none

/-- The record with a real field written: `RATIO` clamped to [0, 32], `BP_CENTER` as given (R208). -/
def storeReal (r : OpRecord) (f : RealField) (x : F64) : OpRecord :=
  match f with
  | .ratio => { r with ratio := fclamp x posZero f64ThirtyTwo }
  | .bpCenter => { r with bpCenter := x }

/-- The `FCFG` kind codes (R89). -/
def kindOf (b : BitVec 8) : Option FilterKind :=
  match b.toNat with
  | 0 => some .lowPass
  | 1 => some .highPass
  | 2 => some .bandPass
  | 3 => some .distortion
  | _ => none

/-- The four parameter registers of a filter unit (R35). -/
inductive FilterParam where
  | ffs
  | ffreq
  | fq
  | flevel
  deriving DecidableEq, Repr

/-- The `FPARAM` selector codes (R89). -/
def filterParamOf (b : BitVec 8) : Option FilterParam :=
  match b.toNat with
  | 0 => some .ffs
  | 1 => some .ffreq
  | 2 => some .fq
  | 3 => some .flevel
  | _ => none

/-- Whether the real operand of `FPARAM` is accepted (R187, R224): finite, and above 0 for `FFS`. -/
def filterOperandOk (p : FilterParam) (x : F64) : Bool :=
  isFinite x &&
    match p with
    | .ffs => fLt posZero x
    | .ffreq => true
    | .fq => true
    | .flevel => true

end Sys2Proof.Machine
end

