-- ==== Sys2Proof/Machine/Flags.lean ====
section
/-! DEFINITION. The block's flags (R29, R33 of 10_state.md; R100 of 40_envelope.md). The block has no
arithmetic condition codes: what a command rule calls a flag is the envelope state of a slot, and the
carrier-active record and the active set are computed from it. -/

namespace Sys2Proof.Machine

/-- The code of an envelope state (R29). -/
def envCode : EnvState → Nat
  | .attack => 0
  | .decay => 1
  | .sustain => 2
  | .hold => 3
  | .release => 4
  | .preIdle => 5
  | .idle => 6

/-- The timed states of R100, which advance by themselves. -/
def isTimed : EnvState → Bool
  | .attack => true
  | .decay => true
  | .sustain => true
  | .hold => false
  | .release => true
  | .preIdle => true
  | .idle => false

/-- The states in which `EnvRelease` has an effect (R109). -/
def isReleasable : EnvState → Bool
  | .attack => true
  | .decay => true
  | .sustain => true
  | .hold => true
  | .release => false
  | .preIdle => false
  | .idle => false

/-- Operator-active (R142): the slot's envelope is not IDLE. -/
def slotActive (slot : OpSlot) : Bool := slot.env.state != .idle

/-- The record of R152: for every carrier, 1 when its envelope is not IDLE, else 0; the bits of operators
that are no carriers are kept. -/
def recordCarriers (carriers : OpSet) (ops : Vector OpSlot maxOps) (old : OpSet) : OpSet :=
  (members carriers).foldl
    (fun acc c => if slotActive ops[c] then acc ||| opBit c else acc &&& ~~~opBit c) old

/-- One voice of `Deactivate()` (R153): an active voice leaves `ACTIVE` when the record is 0 for every
carrier. -/
def deactivateVoice (carriers : OpSet) (vs : VoiceState) : VoiceState :=
  { vs with active := vs.active && !((members carriers).all fun c => !inSet vs.carrierActive c) }

end Sys2Proof.Machine
end

