-- ==== Sys2Proof/Machine/Envelope.lean ====
section
/-! DEFINITION. The envelope generator (40_envelope.md): the configuration of a slot (R101 to R103), the
micro-operations `EnvStep`, `EnvNext`, `EnvInit`, `EnvRelease`, `EnvReset` (R104 to R110), and the read
commands `ENVRD` and `ENVST` (R112, R113). -/

namespace Sys2Proof.Machine

/-- `TGT(o, s)` of R103 for the record of operator `o`; a resting state has no target. -/
def envTarget (P : OpenParams) (r : OpRecord) : EnvState → F64
  | .attack => levelLut P r.levelA.toNat
  | .decay => levelLut P r.levelD.toNat
  | .sustain => levelLut P r.levelS.toNat
  | .release => levelLut P r.levelR.toNat
  | .preIdle => posZero
  | .hold => posZero
  | .idle => posZero

/-- `LEN(o, s)` of R103 for the record of operator `o`; a resting state has no length. -/
def envLength (P : OpenParams) (r : OpRecord) : EnvState → Nat
  | .attack => segSamples P r.speedA.toNat
  | .decay => segSamples P r.speedD.toNat
  | .sustain => segSamples P r.speedS.toNat
  | .release => segSamples P r.speedR.toNat
  | .preIdle => preIdleSamples P
  | .hold => 1
  | .idle => 1

/-- `EnvArm` of R105: enter the timed state `st` from the present amplitude. -/
def envArm (P : OpenParams) (r : OpRecord) (st : EnvState) (e : EnvSlot) : EnvSlot :=
  { e with state := st, startAmp := e.amp, endAmp := envTarget P r st, pos := 0,
           size := envLength P r st }

/-- Entry to HOLD (R105). -/
def envHold (e : EnvSlot) : EnvSlot :=
  { e with state := .hold, startAmp := e.amp, endAmp := e.amp, pos := 0, size := 1 }

/-- `EnvNext` of R105: the transition of a completed timed segment; never applied in HOLD or IDLE. -/
def envNext (P : OpenParams) (r : OpRecord) (e : EnvSlot) : EnvSlot :=
  match e.state with
  | .attack => envArm P r .decay e
  | .decay => envArm P r .sustain e
  | .sustain => envHold e
  | .release => envArm P r .preIdle e
  | .preIdle => EnvSlot.reset
  | .hold => e
  | .idle => e

/-- The interpolation of R104 at position `pos`. -/
def envInterpolate (P : OpenParams) (e : EnvSlot) (pos : Nat) : F64 :=
  fAdd P e.startAmp (fMul P (fSub P e.endAmp e.startAmp) (fDiv P (i2f pos) (i2f e.size)))

/-- A timed slot after it has advanced by one sample, before any transition (R104). -/
def envAdvance (P : OpenParams) (e : EnvSlot) : EnvSlot :=
  { e with pos := e.pos + 1, amp := envInterpolate P e (e.pos + 1) }

/-- `EnvStep` of R104; the amplitude it returns is the `amp` of the slot it gives. -/
def envStep (P : OpenParams) (r : OpRecord) (e : EnvSlot) : EnvSlot :=
  if isTimed e.state then
    if e.size ≤ e.pos + 1 then envNext P r (envAdvance P e) else envAdvance P e
  else e

/-- `EnvInit` of R108. -/
def envInit (P : OpenParams) (r : OpRecord) (e : EnvSlot) : EnvSlot := envArm P r .attack e

/-- `EnvRelease` of R109. -/
def envRelease (P : OpenParams) (r : OpRecord) (e : EnvSlot) : EnvSlot :=
  if isReleasable e.state then envArm P r .release e else e

/-- `EnvReset` of R110: any slot becomes the cold slot. -/
def envReset (_ : EnvSlot) : EnvSlot := EnvSlot.reset

/-! ### The read commands -/

/-- The slot `[o][v]` of the voice store. -/
def slotAt (s : State) (o : Op) (v : Voice) : OpSlot := s.block.voices[v].ops[o]

/-- `ENVRD` (R112). -/
def envRead (voice operator : BitVec 8) (s : State) : State :=
  match voiceOf voice, opOf operator with
  | some v, some o => respond .ok (slotAt s o v).env.amp s
  | _, _ => refuse .badIndex s

/-- `ENVST` (R113). -/
def envState (voice operator : BitVec 8) (s : State) : State :=
  match voiceOf voice, opOf operator with
  | some v, some o => respond .ok (BitVec.ofNat 64 (envCode (slotAt s o v).env.state)) s
  | _, _ => refuse .badIndex s

/-- The meaning of `ENVRD` (R112). -/
def execEnvrd (voice operator : BitVec 8) (s : State) : Result := .next (envRead voice operator s)

/-- The meaning of `ENVST` (R113). -/
def execEnvst (voice operator : BitVec 8) (s : State) : Result := .next (envState voice operator s)

end Sys2Proof.Machine
end

