-- ==== Sys2Proof/Machine/Breakpoint.lean ====
section
/-! DEFINITION. The keyboard-scaling gain unit (41_breakpoint.md): `PCTPOS` (R122) and `BpLevel`
(R125), whose result `KEYON` caches in `BPMUL` (R127). -/

namespace Sys2Proof.Machine

/-- `PCTPOS(a, b, x)` of R122. -/
def pctPos (P : OpenParams) (a b x : F64) : F64 :=
  fMul P (fDiv P (fSub P x a) (fSub P b a)) f64Hundred

/-- The curve of a side at a ratio, both clamped as in R125. -/
def bpCurveLevel (P : OpenParams) (curve : Nat) (ratio : F64) : F64 :=
  fclamp (bpCurve P curve (fclamp ratio posZero f64One)) posZero f64Two

/-- The ratio of R125 for a played frequency below the center. -/
def bpLeftRatio (P : OpenParams) (c : F64) (depth : Nat) (f : F64) : F64 :=
  fDiv P (pctPos P (bpLower P c depth) c f) f64Hundred

/-- The ratio of R125 for a played frequency above the center. -/
def bpRightRatio (P : OpenParams) (c : F64) (depth : Nat) (f : F64) : F64 :=
  fSub P f64One (fDiv P (pctPos P c (bpUpper P c depth) f) f64Hundred)

/-- `BpLevel(o, f)` of R125 for the record of operator `o`. -/
def bpLevel (P : OpenParams) (r : OpRecord) (f : F64) : F64 :=
  if fEq f r.bpCenter then f64One
  else if fLt f r.bpCenter then
    if r.bpLDepth = 0 then f64One
    else bpCurveLevel P r.bpLCurve.toNat (bpLeftRatio P r.bpCenter r.bpLDepth.toNat f)
  else
    if r.bpRDepth = 0 then f64One
    else bpCurveLevel P r.bpRCurve.toNat (bpRightRatio P r.bpCenter r.bpRDepth.toNat f)

end Sys2Proof.Machine
end

