-- ==== Sys2Proof/Machine/Oscillator.lean ====
section
/-! DEFINITION. The operator oscillator (42_oscillator.md): the waveform function (R131 to R135), the
modulation sum (R137), the feedback approximation (R138), the frame (R139), and the start and stop of
an operator (R140, R141). -/

namespace Sys2Proof.Machine

/-! ### Waveform -/

/-- `S` of R133. -/
def sineOf (P : OpenParams) (rate modulation phase tf : F64) : F64 :=
  fSin P (fAdd P (fAdd P (fMul P (fMul P f64TwoPi rate) tf) modulation) phase)

/-- The sawtooth of R133. -/
def sawOf (P : OpenParams) (rate modulation phase tf : F64) : F64 :=
  fNeg (fMul P f64TwoOverPi
    (fAtan P (fCot P (fAdd P (fAdd P (fMul P (fMul P f64Pi tf) rate) modulation) phase))))

/-- `draw_noise()` of R11 and R135: the value that waits first at the noise input, or, where none waits, the
next of the open sequence. -/
def drawNoise (P : OpenParams) (n : NoiseInput) : F64 × NoiseInput :=
  match n.waiting with
  | [] => (noiseDraw P n.taken, { n with taken := n.taken + 1 })
  | x :: rest => (noiseValue x, { waiting := rest, taken := n.taken + 1 })

/-- `Wave` of R133, with the noise input before and after: only the noise kind draws from it
(R131, R135). -/
def wave (P : OpenParams) (kind : BitVec 8) (rate modulation phase : F64) (t : BitVec 64)
    (noise : NoiseInput) : F64 × NoiseInput :=
  let tf := i2f t.toNat
  match kind.toNat with
  | 0 => (sineOf P rate modulation phase tf, noise)
  | 1 => (fSign (sineOf P rate modulation phase tf), noise)
  | 2 => (fMul P f64TwoOverPi (fAsin P (sineOf P rate modulation phase tf)), noise)
  | 3 => (sawOf P rate modulation phase tf, noise)
  | 4 => drawNoise P noise
  | _ => (posZero, noise)

/-! ### Modulation and feedback -/

/-- The average of the frames of a list of operators, summed in the list's order (R137, R152); an empty
list gives `+0.0` (R137). -/
def averageFrames (P : OpenParams) (frames : Vector F64 maxOps) : List Op → F64
  | [] => posZero
  | o :: rest =>
    fDiv P (rest.foldl (fun acc m => fAdd P acc frames[m]) frames[o]) (i2f (rest.length + 1))

/-- `Modulation(o, F)` of R137. -/
def modulation (P : OpenParams) (pr : Preset) (o : Op) (frames : Vector F64 maxOps) : F64 :=
  averageFrames P frames (modsOf pr o)

/-- One harmonic's term of R138. -/
def harmonic (P : OpenParams) (rate tf : F64) (h : Nat) : F64 :=
  fDiv P (fSin P (fMul P (fMul P f64TwoPi (fMul P (i2f h) rate)) tf)) (i2f h)

/-- The harmonic numbers of R138. -/
def harmonics (depth : Int) : List Nat := if 0 < depth then [2, 3, 4, 5, 6] else [3, 5, 7, 9, 11]

/-- `Feedback(o, v, t)` of R138. -/
def feedback (P : OpenParams) (pr : Preset) (o : Op) (rate : F64) (t : BitVec 64) : F64 :=
  let depth := pr.records[o].fbDepth.toInt
  if o.val ≠ pr.fbSource.toNat ∨ depth = 0 then posZero
  else
    fMul P (fbLut P depth)
      ((harmonics depth).foldl (fun acc h => fAdd P acc (harmonic P rate (i2f t.toNat) h)) posZero)

/-! ### Frame -/

/-- What the evaluation of the operators of one voice in one tick carries along (R152): the slots as far
as they have stepped, the frames computed so far, the noise input. -/
structure TickAcc where
  /-- The slots of the voice. -/
  ops : Vector OpSlot maxOps
  /-- `F`; an operator not yet evaluated has no frame and none is read (R139). -/
  frames : Vector F64 maxOps
  /-- The noise input. -/
  noise : NoiseInput
  deriving DecidableEq, Repr

/-- The product `own` of R139. -/
def ownSample (P : OpenParams) (r : OpRecord) (w bpMul e : F64) : F64 :=
  fMul P (fMul P (fMul P w (outLut P r.outLevel.toNat)) bpMul) e

/-- `Frame(o, v, t, F)` of R139: the slot steps, the frame of `o` is recorded. -/
def frame (P : OpenParams) (pr : Preset) (t : BitVec 64) (acc : TickAcc) (o : Op) : TickAcc :=
  let slot := acc.ops[o]
  let r := pr.records[o]
  let w := wave P r.wave slot.rate (modulation P pr o acc.frames) posZero t acc.noise
  let env := envStep P r slot.env
  let value := fAdd P (ownSample P r w.1 slot.bpMul env.amp) (feedback P pr o slot.rate t)
  { ops := acc.ops.set o.val { slot with env := env },
    frames := acc.frames.set o.val value,
    noise := w.2 }

/-! ### Start and stop -/

/-- The three assignments of `OpStart(o, v, f)` (R140) on one slot. -/
def startSlot (P : OpenParams) (r : OpRecord) (f : F64) (slot : OpSlot) : OpSlot :=
  { rate := fDiv P (fMul P r.ratio f) (i2f (sampleRate P)),
    bpMul := bpLevel P r f,
    env := envInit P r slot.env }

/-- `EnvRelease` on one slot (R141). -/
def stopSlot (P : OpenParams) (r : OpRecord) (slot : OpSlot) : OpSlot :=
  { slot with env := envRelease P r slot.env }

/-- A function of the operator's record applied to the slot of every operator in `REACH`. -/
def mapReach (pr : Preset) (f : OpRecord → OpSlot → OpSlot) (ops : Vector OpSlot maxOps) :
    Vector OpSlot maxOps :=
  let set := reach pr
  Vector.ofFn fun o => if inSet set o then f pr.records[o] ops[o] else ops[o]

/-- `OpStart(o, v, f)` as R140 writes it, with at most `n` operators on a path: the three assignments,
then the cascade over the modulators in ascending order. -/
def opStart (P : OpenParams) (pr : Preset) (f : F64) :
    Nat → Op → Vector OpSlot maxOps → Vector OpSlot maxOps
  | 0, _, ops => ops
  | n + 1, o, ops =>
    (modsOf pr o).foldl (fun acc m => opStart P pr f n m acc)
      (ops.set o.val (startSlot P pr.records[o] f ops[o]))

/-- `OpStop(o, v)` as R141 writes it, with at most `n` operators on a path: the cascade over the
modulators in ascending order, then the release. -/
def opStop (P : OpenParams) (pr : Preset) :
    Nat → Op → Vector OpSlot maxOps → Vector OpSlot maxOps
  | 0, _, ops => ops
  | n + 1, o, ops =>
    let cascaded := (modsOf pr o).foldl (fun acc m => opStop P pr n m acc) ops
    cascaded.set o.val (stopSlot P pr.records[o] cascaded[o])

/-- `OpStart` applied from every carrier (R140; log entry 7): the three assignments once for each operator in
`REACH`, which R140 says is the same as its cascade over the modulators. -/
def startOps (P : OpenParams) (pr : Preset) (f : F64) (ops : Vector OpSlot maxOps) :
    Vector OpSlot maxOps :=
  mapReach pr (fun r slot => startSlot P r f slot) ops

/-- `OpStop` applied from every carrier (R141; log entry 7): `EnvRelease` once for each operator in `REACH`, which
R141 says is the same as its cascade over the modulators. -/
def stopOps (P : OpenParams) (pr : Preset) (ops : Vector OpSlot maxOps) : Vector OpSlot maxOps :=
  mapReach pr (stopSlot P) ops

end Sys2Proof.Machine
end

