-- ==== Sys2Proof/Machine/Filter.lean ====
section
/-! DEFINITION. The filter units (45_biquad_distortion.md): the coefficient computation (R188, R189), the
biquad and distortion steps (R191, R192, R196), and the commands `FCFG` and `FPARAM` (R186, R187). -/

namespace Sys2Proof.Machine

/-! ### Coefficients -/

/-- The numerator `b0, b1, b2` of a biquad kind for `cos w` and `alpha` (R188); the distortion kind has
none and is not asked for one. -/
def numerator (P : OpenParams) (kind : FilterKind) (cw al : F64) : F64 × F64 × F64 :=
  match kind with
  | .lowPass =>
    (fDiv P (fSub P f64One cw) f64Two, fSub P f64One cw, fDiv P (fSub P f64One cw) f64Two)
  | .highPass =>
    (fDiv P (fAdd P f64One cw) f64Two, fNeg (fAdd P f64One cw), fDiv P (fAdd P f64One cw) f64Two)
  | .bandPass => (al, posZero, fNeg al)
  | .distortion => (posZero, posZero, posZero)

/-- `w` of R188. -/
def filterOmega (P : OpenParams) (u : FilterUnit) : F64 :=
  fDiv P (fMul P f64TwoPi u.ffreq) u.ffs

/-- `al` of R188. -/
def filterAlpha (P : OpenParams) (u : FilterUnit) : F64 :=
  fDiv P (fSin P (filterOmega P u)) (fMul P f64Two u.fq)

/-- The five normalized coefficients of R188 written into the unit. -/
def biquadCoefficients (P : OpenParams) (u : FilterUnit) : FilterUnit :=
  let cw := fCos P (filterOmega P u)
  let al := filterAlpha P u
  let a0 := fAdd P f64One al
  let a1 := fNeg (fMul P f64Two cw)
  let a2 := fSub P f64One al
  let b := numerator P u.kind cw al
  { u with b0 := fDiv P b.1 a0, b1 := fDiv P b.2.1 a0, b2 := fDiv P b.2.2 a0,
           a1 := fDiv P a1 a0, a2 := fDiv P a2 a0 }

/-- `CoefUpdate(i)` of R188: a distortion unit's coefficients are untouched. -/
def coefUpdate (P : OpenParams) (u : FilterUnit) : FilterUnit :=
  match u.kind with
  | .lowPass => biquadCoefficients P u
  | .highPass => biquadCoefficients P u
  | .bandPass => biquadCoefficients P u
  | .distortion => u

/-! ### Stepping -/

/-- The output of the recurrence of R192, the five products combined left to right. -/
def biquadOutput (P : OpenParams) (u : FilterUnit) (x0 : F64) : F64 :=
  fSub P
    (fSub P
      (fAdd P (fAdd P (fMul P u.b0 x0) (fMul P u.b1 u.x1)) (fMul P u.b2 u.x2))
      (fMul P u.a1 u.y1))
    (fMul P u.a2 u.y2)

/-- `BiquadStep(i, x0)` of R192: the output, and the unit with its history shifted. -/
def biquadStep (P : OpenParams) (u : FilterUnit) (x0 : F64) : F64 × FilterUnit :=
  let y := biquadOutput P u x0
  (y, { u with x1 := x0, x2 := u.x1, y1 := y, y2 := u.y1 })

/-- `DistStep(i, x)` of R196. -/
def distStep (P : OpenParams) (u : FilterUnit) (x : F64) : F64 := distShape P u.flevel x

/-- `FilterApply(fid, x)` of R191. -/
def filterApply (P : OpenParams) (u : FilterUnit) (x : F64) : F64 × FilterUnit :=
  match u.kind with
  | .lowPass => biquadStep P u x
  | .highPass => biquadStep P u x
  | .bandPass => biquadStep P u x
  | .distortion => (distStep P u x, u)

/-! ### Configuration commands -/

/-- The unit with a new kind and a zero history, before its coefficients are recomputed (R186). -/
def configureUnit (kind : FilterKind) (u : FilterUnit) : FilterUnit :=
  { u with kind := kind, x1 := posZero, x2 := posZero, y1 := posZero, y2 := posZero }

/-- `FCFG` (R186). -/
def filterConfig (P : OpenParams) (fid kind : BitVec 8) (s : State) : State :=
  match fidOf P fid, kindOf kind with
  | some i, some k =>
    respondOk (setFilter i (coefUpdate P (configureUnit k s.block.filters[i])) s)
  | _, _ => refuse .badIndex s

/-- The unit with a parameter register written and, for `FFS`, `FFREQ` and `FQ`, its coefficients
recomputed (R187). -/
def storeParam (P : OpenParams) (p : FilterParam) (x : F64) (u : FilterUnit) : FilterUnit :=
  match p with
  | .ffs => coefUpdate P { u with ffs := x }
  | .ffreq => coefUpdate P { u with ffreq := x }
  | .fq => coefUpdate P { u with fq := fclamp x (qMin P) (qMax P) }
  | .flevel => { u with flevel := fclamp x posZero f64Five }

/-- `FPARAM` (R187): the index checks come before the operand check (R229). -/
def filterParam (P : OpenParams) (fid sel : BitVec 8) (value : F64) (s : State) : State :=
  match fidOf P fid, filterParamOf sel with
  | some i, some p =>
    if filterOperandOk p value then
      respondOk (setFilter i (storeParam P p value s.block.filters[i]) s)
    else refuse .badOperand s
  | _, _ => refuse .badIndex s

/-- The meaning of `FCFG` (R186). -/
def execFcfg (fid kind : BitVec 8) (s : State) : Result := .next (filterConfig openParams fid kind s)

/-- The meaning of `FPARAM` (R187). -/
def execFparam (fid sel : BitVec 8) (value : F64) (s : State) : Result :=
  .next (filterParam openParams fid sel value s)

end Sys2Proof.Machine
end

