-- ==== Sys2Proof/Machine/Chain.lean ====
section
/-! DEFINITION. The filter chain (44_filterchain.md): the five commands that change it (R170 to R175) and
`ChainProcess` (R176). -/

namespace Sys2Proof.Machine

/-- Whether a filter unit is in the chain, in either mode. -/
def inChain (chain : List Stage) (i : Fid) : Bool := chain.any fun st => st.fid == i

/-- The chain with a stage appended, or unchanged where its unit is already in it (R171, R172). -/
def chainAdd (mode : ChainMode) (i : Fid) (chain : List Stage) : List Stage :=
  if inChain chain i then chain else chain ++ [{ mode := mode, fid := i }]

/-- The chain with the stage of a unit deleted, the others in their order (R173). -/
def chainRemove (i : Fid) (chain : List Stage) : List Stage :=
  chain.filter fun st => st.fid != i

/-- The position of a filter unit's stage, counted from 0 at the head (R170). -/
def chainPosition (chain : List Stage) (i : Fid) : Option Nat :=
  chain.findIdx? fun st => st.fid == i

/-- The chain with the whole pairs at two positions exchanged (R174). -/
def exchangeAt (p q : Nat) (chain : List Stage) : List Stage :=
  match chain[p]?, chain[q]? with
  | some sp, some sq => (chain.set p sq).set q sp
  | _, _ => chain

/-- The chain with the stages of two units exchanged, each with its own mode; unchanged where either is
not in the chain (R174). -/
def chainExchange (i j : Fid) (chain : List Stage) : List Stage :=
  match chainPosition chain i, chainPosition chain j with
  | some p, some q => exchangeAt p q chain
  | _, _ => chain

/-! ### The commands -/

/-- `CHADDSUM` and `CHADDLINK` (R171, R172), by mode. -/
def chainAddCommand (P : OpenParams) (mode : ChainMode) (fid : BitVec 8) (s : State) : State :=
  match fidOf P fid with
  | some i => respondOk (setChain (chainAdd mode i s.block.chain) s)
  | none => refuse .badIndex s

/-- `CHREMOVE` (R173). -/
def chainRemoveCommand (P : OpenParams) (fid : BitVec 8) (s : State) : State :=
  match fidOf P fid with
  | some i => respondOk (setChain (chainRemove i s.block.chain) s)
  | none => refuse .badIndex s

/-- `CHSWAP` (R174). -/
def chainSwapCommand (P : OpenParams) (fidA fidB : BitVec 8) (s : State) : State :=
  match fidOf P fidA, fidOf P fidB with
  | some i, some j => respondOk (setChain (chainExchange i j s.block.chain) s)
  | _, _ => refuse .badIndex s

/-- `CHCLEAR` (R175). -/
def chainClearCommand (s : State) : State := respondOk (setChain [] s)

/-! ### Processing -/

/-- One stage of `ChainProcess` (R176) for the chain's input `x` and the accumulator `acc`: the new
accumulator and the unit after its step. A LINK stage at the head of the chain filters `x`. -/
def stageApply (P : OpenParams) (x acc : F64) (head : Bool) (mode : ChainMode) (u : FilterUnit) :
    F64 × FilterUnit :=
  match mode with
  | .sum => (fAdd P acc (filterApply P u x).1, (filterApply P u x).2)
  | .link => filterApply P u (if head then x else acc)

/-- The walk of `ChainProcess` (R176) from a stage on; `head` says that it is the chain's first. -/
def chainWalk (P : OpenParams) (x : F64) :
    Bool → F64 → Vector FilterUnit maxFilters → List Stage → F64 × Vector FilterUnit maxFilters
  | _, acc, filters, [] => (acc, filters)
  | head, acc, filters, st :: rest =>
    let r := stageApply P x acc head st.mode filters[st.fid]
    chainWalk P x false r.1 (filters.set st.fid.val r.2) rest

/-- `ChainProcess(x)` of R176. -/
def chainProcess (P : OpenParams) (chain : List Stage) (x : F64)
    (filters : Vector FilterUnit maxFilters) : F64 × Vector FilterUnit maxFilters :=
  match chain with
  | [] => (x, filters)
  | st :: rest => chainWalk P x true posZero filters (st :: rest)

/-! ### Meanings -/

/-- The meaning of `CHADDSUM` (R171). -/
def execChaddsum (fid : BitVec 8) (s : State) : Result := .next (chainAddCommand openParams .sum fid s)

/-- The meaning of `CHADDLINK` (R172). -/
def execChaddlink (fid : BitVec 8) (s : State) : Result :=
  .next (chainAddCommand openParams .link fid s)

/-- The meaning of `CHREMOVE` (R173). -/
def execChremove (fid : BitVec 8) (s : State) : Result := .next (chainRemoveCommand openParams fid s)

/-- The meaning of `CHSWAP` (R174). -/
def execChswap (fidA fidB : BitVec 8) (s : State) : Result :=
  .next (chainSwapCommand openParams fidA fidB s)

/-- The meaning of `CHCLEAR` (R175). -/
def execChclear (s : State) : Result := .next (chainClearCommand s)

end Sys2Proof.Machine
end

