-- ==== Sys2Proof/Machine/Voice.lean ====
section
/-! DEFINITION. The voice-graph sequencer, the voice pool, the mixer and the gain
(43_voice_algorithm.md): `VoiceSample`, `Deactivate` and `TICK` (R150 to R153), the note events `KEYON`,
`KEYOFF`, `ALLOFF` (R155 to R157), `SETGAIN` and `VACT` (R158, R159). -/

namespace Sys2Proof.Machine

/-! ### TICK -/

/-- The evaluation of every operator of a voice in `EVAL_ORDER` (R152). -/
def runFrames (P : OpenParams) (pr : Preset) (order : List Op) (vs : VoiceState) (noise : NoiseInput) :
    TickAcc :=
  order.foldl (frame P pr vs.elapsed)
    { ops := vs.ops, frames := Vector.replicate maxOps posZero, noise := noise }

/-- The result of `VoiceSample` (R152). -/
structure VoiceResult where
  /-- The voice's sample. -/
  sample : F64
  /-- The voice after the evaluation. -/
  voice : VoiceState
  /-- The noise input. -/
  noise : NoiseInput
  deriving DecidableEq, Repr

/-- `VoiceSample(v)` of R152; `order` is `EVAL_ORDER` of the active preset. -/
def voiceSample (P : OpenParams) (pr : Preset) (order : List Op) (vs : VoiceState) (noise : NoiseInput) :
    VoiceResult :=
  let acc := runFrames P pr order vs noise
  { sample := averageFrames P acc.frames (members pr.carriers),
    voice := { vs with ops := acc.ops, elapsed := vs.elapsed + 1,
                       carrierActive := recordCarriers pr.carriers acc.ops vs.carrierActive },
    noise := acc.noise }

/-- What the loop of `TICK` over the voices carries along (R150). -/
structure MixAcc where
  /-- The voice store. -/
  voices : Vector VoiceState numVoices
  /-- `mix`. -/
  mix : F64
  /-- The noise input. -/
  noise : NoiseInput
  deriving DecidableEq, Repr

/-- One voice of the loop of `TICK` (R150): an active voice is evaluated and its sample added. -/
def mixVoice (P : OpenParams) (pr : Preset) (order : List Op) (acc : MixAcc) (v : Voice) : MixAcc :=
  if acc.voices[v].active then
    let r := voiceSample P pr order acc.voices[v] acc.noise
    { voices := acc.voices.set v.val r.voice, mix := fAdd P acc.mix r.sample, noise := r.noise }
  else acc

/-- The loop of `TICK` over the voices, ascending (R150). -/
def mixVoices (P : OpenParams) (pr : Preset) (voices : Vector VoiceState numVoices) (noise : NoiseInput) :
    MixAcc :=
  (List.finRange numVoices).foldl (mixVoice P pr (evalOrder pr))
    { voices := voices, mix := posZero, noise := noise }

/-- `Deactivate()` of R153. -/
def deactivate (carriers : OpSet) (voices : Vector VoiceState numVoices) :
    Vector VoiceState numVoices :=
  Vector.ofFn fun v => deactivateVoice carriers voices[v]

/-- The block after a `TICK` and the sample it gives (R150). -/
def tickBlock (P : OpenParams) (b : Block) (noise : NoiseInput) : F64 × Block × NoiseInput :=
  let mixed := mixVoices P b.active b.voices noise
  let out := chainProcess P b.chain (fMul P mixed.mix b.gain) b.filters
  (out.1, { b with voices := deactivate b.active.carriers mixed.voices, filters := out.2 },
    mixed.noise)

/-- `TICK` (R150). -/
def tick (P : OpenParams) (s : State) : State :=
  let r := tickBlock P s.block s.noise
  respond .ok r.1 { s with block := r.2.1, noise := r.2.2 }

/-! ### Note events -/

/-- A voice after a note-on (R155): a cold voice's counter is zeroed, every operator in `REACH` is
started, the voice is active. -/
def startVoice (P : OpenParams) (pr : Preset) (f : F64) (vs : VoiceState) : VoiceState :=
  { vs with ops := startOps P pr f vs.ops, elapsed := if vs.active then vs.elapsed else 0,
            active := true }

/-- A voice after a note-off (R156): every operator in `REACH` is released. -/
def stopVoice (P : OpenParams) (pr : Preset) (vs : VoiceState) : VoiceState :=
  { vs with ops := stopOps P pr vs.ops }

/-- Every voice slot after `releaseAllVoices` (R157). -/
def stopVoices (P : OpenParams) (pr : Preset) (voices : Vector VoiceState numVoices) :
    Vector VoiceState numVoices :=
  Vector.ofFn fun v => stopVoice P pr voices[v]

/-- `KEYON` (R155), its refusals in the order of R229. -/
def keyOn (P : OpenParams) (voice : BitVec 8) (frequency : F64) (s : State) : State :=
  match voiceOf voice with
  | none => refuse .badIndex s
  | some v =>
    if !isFinite frequency then refuse .badOperand s
    else if s.block.active.count = 0 then refuse .noPreset s
    else respondOk (setVoice v (startVoice P s.block.active frequency s.block.voices[v]) s)

/-- `KEYOFF` (R156). -/
def keyOff (P : OpenParams) (voice : BitVec 8) (s : State) : State :=
  match voiceOf voice with
  | none => refuse .badIndex s
  | some v => respondOk (setVoice v (stopVoice P s.block.active s.block.voices[v]) s)

/-- `ALLOFF` (R157): every voice slot, active or not. -/
def allOff (P : OpenParams) (s : State) : State :=
  respondOk (setVoices (stopVoices P s.block.active s.block.voices) s)

/-! ### Gain and the voice-active read -/

/-- `SETGAIN` (R158). -/
def gainCommand (value : F64) (s : State) : State :=
  if isFinite value then respondOk (setGain (fclamp value posZero f64Ten) s)
  else refuse .badOperand s

/-- `VACT` (R159). -/
def voiceActive (voice : BitVec 8) (s : State) : State :=
  match voiceOf voice with
  | none => refuse .badIndex s
  | some v => respond .ok (if s.block.voices[v].active then 1 else 0) s

/-! ### Meanings -/

/-- The meaning of `TICK` (R150). -/
def execTick (s : State) : Result := .next (tick openParams s)

/-- The meaning of `KEYON` (R155). -/
def execKeyon (voice : BitVec 8) (frequency : F64) (s : State) : Result :=
  .next (keyOn openParams voice frequency s)

/-- The meaning of `KEYOFF` (R156). -/
def execKeyoff (voice : BitVec 8) (s : State) : Result := .next (keyOff openParams voice s)

/-- The meaning of `ALLOFF` (R157). -/
def execAlloff (s : State) : Result := .next (allOff openParams s)

/-- The meaning of `SETGAIN` (R158). -/
def execSetgain (value : F64) (s : State) : Result := .next (gainCommand value s)

/-- The meaning of `VACT` (R159). -/
def execVact (voice : BitVec 8) (s : State) : Result := .next (voiceActive voice s)

end Sys2Proof.Machine
end

