-- ==== Sys2Proof/Machine/PresetStore.lean ====
section
/-! DEFINITION. Preset staging and load (46_preset.md): the staging commands (R201 to R208), `Validate`
(R211), `Commit` (R212) and `LOADPRESET` (R210). -/

namespace Sys2Proof.Machine

/-! ### Staging commands -/

/-- `PCLEAR` (R201). -/
def stageClear (s : State) : State := respondOk (setStaged Preset.reset s)

/-- `PNOPS` (R202). -/
def stageCount (count : BitVec 8) (s : State) : State :=
  match countOf count with
  | none => refuse .badIndex s
  | some n => respondOk (setStaged { s.block.staged with count := n } s)

/-- `PCARR` (R203). -/
def stageCarrier (operator : BitVec 8) (s : State) : State :=
  match opOf operator with
  | none => refuse .badIndex s
  | some o =>
    respondOk (setStaged { s.block.staged with carriers := s.block.staged.carriers ||| opBit o } s)

/-- `PFBK` (R204). -/
def stageFeedback (source target : BitVec 8) (s : State) : State :=
  match opOf source, opOf target with
  | some src, some tgt =>
    respondOk (setStaged { s.block.staged with fbSource := BitVec.ofNat 6 src.val,
                                               fbTarget := BitVec.ofNat 6 tgt.val } s)
  | _, _ => refuse .badIndex s

/-- A preset with the edge `(m, o)` added (R205). -/
def addEdge (pr : Preset) (m o : Op) : Preset :=
  { pr with mods := pr.mods.set o.val (pr.mods[o] ||| opBit m) }

/-- `PMOD` (R205). -/
def stageEdge (modulator target : BitVec 8) (s : State) : State :=
  match opOf modulator, opOf target with
  | some m, some o => respondOk (setStaged (addEdge s.block.staged m o) s)
  | _, _ => refuse .badIndex s

/-- The record with the clamped operand stored in an integer field (R207). -/
def storeClamped (r : OpRecord) (f : IntField) (x : Int) : OpRecord :=
  storeInt r f (iclamp x (intDomain f).1 (intDomain f).2)

/-- `POPI` (R207); the operand is a signed 64-bit integer. -/
def stageInt (operator sel : BitVec 8) (value : BitVec 64) (s : State) : State :=
  match opOf operator, intFieldOf sel with
  | some o, some f =>
    respondOk (setStagedRecord o (storeClamped s.block.staged.records[o] f value.toInt) s)
  | _, _ => refuse .badIndex s

/-- `POPF` (R208): the index checks come before the operand check (R229). -/
def stageReal (operator sel : BitVec 8) (value : F64) (s : State) : State :=
  match opOf operator, realFieldOf sel with
  | some o, some f =>
    if isFinite value then
      respondOk (setStagedRecord o (storeReal s.block.staged.records[o] f value) s)
    else refuse .badOperand s
  | _, _ => refuse .badIndex s

/-! ### Load -/

/-- Every member of the set is below the operator count. -/
def allBelow (set : OpSet) (n : BitVec 6) : Bool :=
  (members set).all fun o => decide (o.val < n.toNat)

/-- Every edge has both ends below the operator count (check 4 of R211). -/
def edgesBelow (pr : Preset) : Bool :=
  (List.finRange maxOps).all fun o =>
    decide (modSet pr o = 0) || (decide (o.val < pr.count.toNat) && allBelow (modSet pr o) pr.count)

/-- `Validate()` of R211: the first check that fails gives the code. -/
def validate (pr : Preset) : Code :=
  if pr.count = 0 then .loadNops
  else if pr.carriers = 0 then .loadNoCarrier
  else if !allBelow pr.carriers pr.count then .loadCarrierRange
  else if !edgesBelow pr then .loadEdgeRange
  else if pr.count.toNat ≤ pr.fbSource.toNat ∨ pr.count.toNat ≤ pr.fbTarget.toNat then .loadFbRange
  else if hasCycle pr.mods then .loadCycle
  else .ok

/-- A slot after `Commit()` (R212). -/
def commitSlot (slot : OpSlot) : OpSlot :=
  { rate := posZero, bpMul := posZero, env := envReset slot.env }

/-- A voice after `Commit()` (R212). -/
def commitVoice (vs : VoiceState) : VoiceState :=
  { ops := Vector.ofFn fun o => commitSlot vs.ops[o], elapsed := 0, carrierActive := 0,
    active := false }

/-- The voice store after `Commit()` (R212). -/
def commitVoices (voices : Vector VoiceState numVoices) : Vector VoiceState numVoices :=
  Vector.ofFn fun v => commitVoice voices[v]

/-- `Commit()` of R212. -/
def commit (b : Block) : Block :=
  { b with active := b.staged, voices := commitVoices b.voices, chain := [] }

/-- `LOADPRESET` (R210). -/
def loadPreset (s : State) : State :=
  match validate s.block.staged with
  | .ok => respondOk { s with block := commit s.block }
  | code => refuse code s

/-! ### Meanings -/

/-- The meaning of `PCLEAR` (R201). -/
def execPclear (s : State) : Result := .next (stageClear s)

/-- The meaning of `PNOPS` (R202). -/
def execPnops (count : BitVec 8) (s : State) : Result := .next (stageCount count s)

/-- The meaning of `PCARR` (R203). -/
def execPcarr (operator : BitVec 8) (s : State) : Result := .next (stageCarrier operator s)

/-- The meaning of `PFBK` (R204). -/
def execPfbk (source target : BitVec 8) (s : State) : Result := .next (stageFeedback source target s)

/-- The meaning of `PMOD` (R205). -/
def execPmod (modulator target : BitVec 8) (s : State) : Result :=
  .next (stageEdge modulator target s)

/-- The meaning of `POPI` (R207). -/
def execPopi (operator sel : BitVec 8) (value : BitVec 64) (s : State) : Result :=
  .next (stageInt operator sel value s)

/-- The meaning of `POPF` (R208). -/
def execPopf (operator sel : BitVec 8) (value : F64) (s : State) : Result :=
  .next (stageReal operator sel value s)

/-- The meaning of `LOADPRESET` (R210). -/
def execLoadpreset (s : State) : Result := .next (loadPreset s)

end Sys2Proof.Machine
end

