-- ==== Sys2Proof/Machine/Dispatch.lean ====
section
/-! DEFINITION. The meaning of every command: one arm per constructor of `Instr`, each one direct call
(R84). -/

namespace Sys2Proof.Machine

open Sys2Proof

/-- What a command does (R220: every command takes a next state and answers). -/
def exec (i : Instr) (s : State) : Host.Outcome State Fault Refusal :=
  match i with
  | .tick => Sys2Proof.Machine.execTick s
  | .keyon voice frequency => Sys2Proof.Machine.execKeyon voice frequency s
  | .keyoff voice => Sys2Proof.Machine.execKeyoff voice s
  | .alloff => Sys2Proof.Machine.execAlloff s
  | .setgain value => Sys2Proof.Machine.execSetgain value s
  | .envrd voice operator => Sys2Proof.Machine.execEnvrd voice operator s
  | .envst voice operator => Sys2Proof.Machine.execEnvst voice operator s
  | .vact voice => Sys2Proof.Machine.execVact voice s
  | .fcfg fid kind => Sys2Proof.Machine.execFcfg fid kind s
  | .fparam fid sel value => Sys2Proof.Machine.execFparam fid sel value s
  | .chaddsum fid => Sys2Proof.Machine.execChaddsum fid s
  | .chaddlink fid => Sys2Proof.Machine.execChaddlink fid s
  | .chremove fid => Sys2Proof.Machine.execChremove fid s
  | .chswap fidA fidB => Sys2Proof.Machine.execChswap fidA fidB s
  | .chclear => Sys2Proof.Machine.execChclear s
  | .pclear => Sys2Proof.Machine.execPclear s
  | .pnops count => Sys2Proof.Machine.execPnops count s
  | .pcarr operator => Sys2Proof.Machine.execPcarr operator s
  | .pfbk source target => Sys2Proof.Machine.execPfbk source target s
  | .pmod modulator target => Sys2Proof.Machine.execPmod modulator target s
  | .popi operator sel value => Sys2Proof.Machine.execPopi operator sel value s
  | .popf operator sel value => Sys2Proof.Machine.execPopf operator sel value s
  | .loadpreset => Sys2Proof.Machine.execLoadpreset s

end Sys2Proof.Machine
end

