-- ==== Sys2Proof/Machine/Step.lean ====
section
/-! DEFINITION. One step of the machine: the block takes the next command word from the command port and
runs it to completion (R69), or, with no command waiting, holds its state (R238, R241). -/

namespace Sys2Proof.Machine

/-- One step (R69, R85, R222). A word that is no command is refused with `ILLEGAL`. -/
def step (s : State) : Host.Outcome State Fault Refusal :=
  match takeCommand s with
  | none => .next s
  | some (w, s') =>
    match decode w with
    | .ok i => exec i s'
    | .error _ => .next (refuse .illegal s')

/-- `s` with the instruction whose `nbits` low bits are `w` put first on the command port, where the
next step takes its command. -/
def State.withFetchWord (s : State) (nbits w : Nat) : State :=
  withCommand s (BitVec.ofNat 128 (w % 2 ^ nbits))

end Sys2Proof.Machine
end

