-- ==== Sys2Proof/Safety.lean ====
section
/-! DEFINITION. What counts as a safe run of the block: the invariants of R40 (10_state.md), the legality
of what the stores hold (R25, R26, R34, R35, R38, R41), and the terms the statements use. -/

namespace Sys2Proof.Machine

/-! ### Runs -/

/-- A step is safe when it takes a next state (R220: no command hangs, faults or is left without an
answer). -/
def StepSafe (s : State) : Prop := ∃ t, step s = .next t

/-- `n` sample ticks of the block under the instantiation `P` (R150). -/
def ticks (P : OpenParams) : Nat → State → State
  | 0, s => s
  | n + 1, s => ticks P n (tick P s)

/-- `n` applications of `EnvStep` to a slot (R111). -/
def envSteps (P : OpenParams) (r : OpRecord) : Nat → EnvSlot → EnvSlot
  | 0, e => e
  | n + 1, e => envSteps P r n (envStep P r e)

/-! ### The topology -/

/-- The edge `(m, o)` is in the set of modulation edges. -/
def Edge (mods : Vector OpSet maxOps) (m o : Op) : Prop := hasEdge mods m o = true

/-- A cycle in the sense of R213: a path of at least one edge from an operator back to it. -/
def Cyclic (mods : Vector OpSet maxOps) : Prop := ∃ o, Relation.TransGen (Edge mods) o o

/-! ### The invariants of R40 -/

/-- (I-f) of R40 and R31 on one slot, with what the resting states keep (R105, R106) and the width of
the counters (R13). -/
structure SlotOk (e : EnvSlot) : Prop where
  /-- `size >= 1`. -/
  size_pos : 1 ≤ e.size
  /-- `size` fits its 32 bits. -/
  size_lt : e.size < 2 ^ 32
  /-- `pos < size` in every timed state, and `pos = 0` in the others. -/
  pos_lt : e.pos < e.size
  /-- An IDLE slot is the cold slot. -/
  idle_cold : e.state = .idle → e = EnvSlot.reset
  /-- A HOLD slot keeps the plateau in all three amplitudes. -/
  hold_flat : e.state = .hold → e.startAmp = e.amp ∧ e.endAmp = e.amp ∧ e.size = 1

/-- A carrier of the active preset whose envelope for voice `v` is not IDLE. -/
def SoundingCarrier (b : Block) (v : Voice) (c : Op) : Prop :=
  inSet b.active.carriers c = true ∧ b.voices[v].ops[c].env.state ≠ .idle

/-- The invariants (I-a) to (I-f) of R40. -/
structure BlockInv (b : Block) : Prop where
  /-- (I-a): a voice is active exactly when some carrier's envelope is not IDLE. -/
  active_iff : ∀ v : Voice, b.voices[v].active = true ↔ ∃ c, SoundingCarrier b v c
  /-- (I-b): with no preset loaded no voice is active, there is no carrier and no edge. -/
  unloaded : b.active.count = 0 →
    (∀ v : Voice, b.voices[v].active = false) ∧ b.active.carriers = 0 ∧
      ∀ o : Op, modSet b.active o = 0
  /-- (I-c): a loaded preset has a carrier. -/
  loaded_carrier : b.active.count ≠ 0 → b.active.carriers ≠ 0
  /-- (I-c): every carrier is below `N`. -/
  carrier_lt : ∀ c : Op, inSet b.active.carriers c = true → c.val < b.active.count.toNat
  /-- (I-c): every end of an edge is below `N`. -/
  edge_lt : ∀ m o : Op, Edge b.active.mods m o →
    m.val < b.active.count.toNat ∧ o.val < b.active.count.toNat
  /-- (I-c): both ends of the feedback edge are below `N`. -/
  feedback_lt : b.active.count ≠ 0 →
    b.active.fbSource.toNat < b.active.count.toNat ∧ b.active.fbTarget.toNat < b.active.count.toNat
  /-- (I-c): the active modulation edges have no cycle. -/
  acyclic : ¬ Cyclic b.active.mods
  /-- (I-d): no filter id occurs twice in the chain. -/
  chain_nodup : (b.chain.map Stage.fid).Nodup
  /-- (I-e) and R23: an operator outside `REACH` holds its reset slot for every voice. -/
  unreached : ∀ (v : Voice) (o : Op), inSet (reach b.active) o = false →
    b.voices[v].ops[o] = OpSlot.reset
  /-- (I-f). -/
  slots : ∀ (v : Voice) (o : Op), SlotOk b.voices[v].ops[o].env

/-! ### Legality of the stores -/

/-- Every field of an operator record is legal (the table of R25). -/
structure RecordLegal (r : OpRecord) : Prop where
  /-- The integer fields lie in the domains of R87. -/
  ints : ∀ f : IntField, (intDomain f).1 ≤ readInt r f ∧ readInt r f ≤ (intDomain f).2
  /-- `RATIO` is finite and in [0, 32]. -/
  ratio : isFinite r.ratio = true ∧ fLe posZero r.ratio = true ∧ fLe r.ratio f64ThirtyTwo = true
  /-- `BP_CENTER` is finite. -/
  center : isFinite r.bpCenter = true

/-- What a preset holds is legal (R24, R26). -/
structure PresetLegal (pr : Preset) : Prop where
  /-- At most 36 operators. -/
  count_le : pr.count.toNat ≤ maxOps
  /-- The feedback source is an operator index. -/
  source_lt : pr.fbSource.toNat < maxOps
  /-- The feedback target is an operator index. -/
  target_lt : pr.fbTarget.toNat < maxOps
  /-- Every record is legal. -/
  records : ∀ o : Op, RecordLegal pr.records[o]

/-- The parameter registers of a filter unit are legal (R35). -/
structure FilterLegal (P : OpenParams) (u : FilterUnit) : Prop where
  /-- `FFS` is finite and above 0. -/
  ffs : isFinite u.ffs = true ∧ fLt posZero u.ffs = true
  /-- `FFREQ` is finite. -/
  ffreq : isFinite u.ffreq = true
  /-- `FQ` lies in `[Q_MIN, Q_MAX]`. -/
  fq : fLe (qMin P) u.fq = true ∧ fLe u.fq (qMax P) = true
  /-- `FLEVEL` lies in [0, 5]. -/
  flevel : fLe posZero u.flevel = true ∧ fLe u.flevel f64Five = true

/-- What the stores hold is legal (R25, R26, R34, R35, R38; R41: what is stored is always legal). -/
structure StoresLegal (P : OpenParams) (b : Block) : Prop where
  /-- The active preset. -/
  active : PresetLegal b.active
  /-- The staged preset. -/
  staged : PresetLegal b.staged
  /-- `GAIN` lies in [0, 10]. -/
  gain : fLe posZero b.gain = true ∧ fLe b.gain f64Ten = true
  /-- The parameters of every filter unit the instantiation has. -/
  filters : ∀ i : Fid, i.val < numFilters P → FilterLegal P b.filters[i]
  /-- Every stage of the chain names a unit the instantiation has. -/
  chain_fids : ∀ st ∈ b.chain, st.fid.val < numFilters P
  /-- A unit the instantiation does not have keeps its reset values. -/
  spare : ∀ i : Fid, numFilters P ≤ i.val → b.filters[i] = FilterUnit.reset P

end Sys2Proof.Machine
end

