-- ==== Sys2Proof/WellFormed.lean ====
section
/-! DEFINITION. Which commands are well formed in the sense of R61, R223 and R224: every index in its
range, no reserved selector or kind, every real operand one the command accepts. It looks at the
operands alone. A command that is not well formed still decodes, and the block refuses it (R85: range
checks belong to the command). -/

namespace Sys2Proof

open Machine

/-- The voice operand is below 132. -/
def voiceOk (a : BitVec 8) : Bool := (voiceOf a).isSome

/-- The operator operand is below 36. -/
def opOk (a : BitVec 8) : Bool := (opOf a).isSome

/-- The filter id is below `NUM_FILTERS`. -/
def fidOk (P : OpenParams) (a : BitVec 8) : Bool := (fidOf P a).isSome

/-- The operator count is at most 36. -/
def countOk (a : BitVec 8) : Bool := (countOf a).isSome

/-- The `POPI` selector is not reserved. -/
def intFieldOk (b : BitVec 8) : Bool := (intFieldOf b).isSome

/-- The `POPF` selector is not reserved. -/
def realFieldOk (b : BitVec 8) : Bool := (realFieldOf b).isSome

/-- The `FCFG` kind is not reserved. -/
def kindOk (b : BitVec 8) : Bool := (kindOf b).isSome

/-- The `FPARAM` selector is not reserved. -/
def filterParamOk (b : BitVec 8) : Bool := (filterParamOf b).isSome

/-- The value of `FPARAM` is accepted by its selector. -/
def filterValueOk (b : BitVec 8) (x : F64) : Bool :=
  match filterParamOf b with
  | some p => filterOperandOk p x
  | none => false

/-- The index and selector operands of a command are in range: it cannot be refused with `BAD_INDEX`
(R223). -/
def Instr.indicesOk (P : OpenParams) (i : Instr) : Bool :=
  match i with
  | .tick => true
  | .keyon v _ => voiceOk v
  | .keyoff v => voiceOk v
  | .alloff => true
  | .setgain _ => true
  | .envrd v o => voiceOk v && opOk o
  | .envst v o => voiceOk v && opOk o
  | .vact v => voiceOk v
  | .fcfg i k => fidOk P i && kindOk k
  | .fparam i sel _ => fidOk P i && filterParamOk sel
  | .chaddsum i => fidOk P i
  | .chaddlink i => fidOk P i
  | .chremove i => fidOk P i
  | .chswap i j => fidOk P i && fidOk P j
  | .chclear => true
  | .pclear => true
  | .pnops n => countOk n
  | .pcarr o => opOk o
  | .pfbk src tgt => opOk src && opOk tgt
  | .pmod m o => opOk m && opOk o
  | .popi o sel _ => opOk o && intFieldOk sel
  | .popf o sel _ => opOk o && realFieldOk sel
  | .loadpreset => true

/-- The real operand of a command is one it accepts: it cannot be refused with `BAD_OPERAND` once its
indices are in range (R224). -/
def Instr.operandOk (i : Instr) : Bool :=
  match i with
  | .tick => true
  | .keyon _ f => isFinite f
  | .keyoff _ => true
  | .alloff => true
  | .setgain g => isFinite g
  | .envrd _ _ => true
  | .envst _ _ => true
  | .vact _ => true
  | .fcfg _ _ => true
  | .fparam _ sel x => filterValueOk sel x
  | .chaddsum _ => true
  | .chaddlink _ => true
  | .chremove _ => true
  | .chswap _ _ => true
  | .chclear => true
  | .pclear => true
  | .pnops _ => true
  | .pcarr _ => true
  | .pfbk _ _ => true
  | .pmod _ _ => true
  | .popi _ _ _ => true
  | .popf _ _ x => isFinite x
  | .loadpreset => true

/-- A well-formed command. -/
def Instr.wellFormed (P : OpenParams) (i : Instr) : Bool := i.indicesOk P && i.operandOk

end Sys2Proof
end

