-- ==== Sys2Proof/Certificates/Slice0/Obligations.lean ====
section
/-! DEFINITION. The statements for the provers: each a closed proposition about the machine, its docstring
naming the rule of the spec it formalises. -/

open Sys2Proof Sys2Proof.Machine

/-! ### Ports, decoding, refusals -/

/-- `s` with the response word of a code and a data word given. The list of responses given is the model's
choice, log entry 2. -/
def Sys2Proof.Machine.answered (s : State) (code : Code) (data : BitVec 64) : State :=
  { s with outbox := s.outbox ++ [responseWord code data] }

/-- The 23 rows of spec/opcode_table.json as (match, mask), R84. -/
def Sys2Proof.opcodeTable : List (CommandWord × CommandWord) :=
  [(0x01000000000000000000000000000000#128, 0xFFFFFFFFFFFFFFFFFFFFFFFFFFFFFFFF#128),
   (0x02000000000000000000000000000000#128, 0xFF00FFFFFFFFFFFF0000000000000000#128),
   (0x03000000000000000000000000000000#128, 0xFF00FFFFFFFFFFFFFFFFFFFFFFFFFFFF#128),
   (0x04000000000000000000000000000000#128, 0xFFFFFFFFFFFFFFFFFFFFFFFFFFFFFFFF#128),
   (0x05000000000000000000000000000000#128, 0xFFFFFFFFFFFFFFFF0000000000000000#128),
   (0x08000000000000000000000000000000#128, 0xFF0000FFFFFFFFFFFFFFFFFFFFFFFFFF#128),
   (0x09000000000000000000000000000000#128, 0xFF0000FFFFFFFFFFFFFFFFFFFFFFFFFF#128),
   (0x0A000000000000000000000000000000#128, 0xFF00FFFFFFFFFFFFFFFFFFFFFFFFFFFF#128),
   (0x10000000000000000000000000000000#128, 0xFF0000FFFFFFFFFFFFFFFFFFFFFFFFFF#128),
   (0x11000000000000000000000000000000#128, 0xFF0000FFFFFFFFFF0000000000000000#128),
   (0x12000000000000000000000000000000#128, 0xFF00FFFFFFFFFFFFFFFFFFFFFFFFFFFF#128),
   (0x13000000000000000000000000000000#128, 0xFF00FFFFFFFFFFFFFFFFFFFFFFFFFFFF#128),
   (0x14000000000000000000000000000000#128, 0xFF00FFFFFFFFFFFFFFFFFFFFFFFFFFFF#128),
   (0x15000000000000000000000000000000#128, 0xFF0000FFFFFFFFFFFFFFFFFFFFFFFFFF#128),
   (0x16000000000000000000000000000000#128, 0xFFFFFFFFFFFFFFFFFFFFFFFFFFFFFFFF#128),
   (0x20000000000000000000000000000000#128, 0xFFFFFFFFFFFFFFFFFFFFFFFFFFFFFFFF#128),
   (0x21000000000000000000000000000000#128, 0xFF00FFFFFFFFFFFFFFFFFFFFFFFFFFFF#128),
   (0x22000000000000000000000000000000#128, 0xFF00FFFFFFFFFFFFFFFFFFFFFFFFFFFF#128),
   (0x23000000000000000000000000000000#128, 0xFF0000FFFFFFFFFFFFFFFFFFFFFFFFFF#128),
   (0x24000000000000000000000000000000#128, 0xFF0000FFFFFFFFFFFFFFFFFFFFFFFFFF#128),
   (0x25000000000000000000000000000000#128, 0xFF0000FFFFFFFFFF0000000000000000#128),
   (0x26000000000000000000000000000000#128, 0xFF0000FFFFFFFFFF0000000000000000#128),
   (0x27000000000000000000000000000000#128, 0xFFFFFFFFFFFFFFFFFFFFFFFFFFFFFFFF#128)]

/-- R81, R82, R84, R85: a word decodes to a command exactly when it is that command's encoding: decoding
the encoding gives every command back, with every operand, and no bit of a word that decodes is
dropped. -/
def Obligations.DecodeExactlyInvertsEncode : Prop :=
  ∀ (w : CommandWord) (i : Instr), decode w = .ok i ↔ w = encode i

/-- R84, R85, R92: the words that decode are exactly those that match a row of the opcode table under its
mask. -/
def Obligations.DecodableIffTableRowMatches : Prop :=
  ∀ w : CommandWord, (∃ i, decode w = .ok i) ↔ ∃ row ∈ opcodeTable, w &&& row.2 = row.1

/-- R95: the worked encodings decode to the commands they are listed for. -/
def Obligations.WorkedEncodingsDecode : Prop :=
  decode 0x01000000000000000000000000000000#128 = .ok .tick ∧
  decode 0x0200000000000000407B800000000000#128 = .ok (.keyon 0 0x407B800000000000#64) ∧
  decode 0x03830000000000000000000000000000#128 = .ok (.keyoff 131) ∧
  decode 0x2503020000000000FFFFFFFFFFFFFFF9#128 = .ok (.popi 3 2 (BitVec.ofInt 64 (-7))) ∧
  decode 0x24010000000000000000000000000000#128 = .ok (.pmod 1 0) ∧
  decode 0x11020200000000003FE0000000000000#128 = .ok (.fparam 2 2 0x3FE0000000000000#64)

/-- R69: when the next word on the command port decodes to a command, the step is that command's meaning
in the state in which the word has been taken. The port as a list of waiting words is the model's choice,
log entry 1. -/
def Obligations.StepRunsDecodedCommand : Prop :=
  ∀ (s : State) (w : CommandWord) (rest : List CommandWord) (i : Instr),
    s.inbox = w :: rest → decode w = .ok i → step s = exec i { s with inbox := rest }

/-- R85, R222: a word that is no command is answered `ILLEGAL` and changes no state of the block. -/
def Obligations.UndecodableWordAnswersIllegal : Prop :=
  ∀ (s : State) (w : CommandWord) (rest : List CommandWord),
    s.inbox = w :: rest → (∀ i, decode w ≠ .ok i) →
      step s = .next (answered { s with inbox := rest } .illegal 0)

/-- R90, R91: the response word carries the code's number in bits 71 to 64 and the data in bits 63 to 0,
and the codes have the listed numbers. -/
def Obligations.ResponseWordLayout : Prop :=
  (∀ code data, (responseWord code data).extractLsb' 64 8 = codeByte code ∧
    (responseWord code data).extractLsb' 0 64 = data) ∧
  codeByte .ok = 0x00 ∧ codeByte .illegal = 0x01 ∧ codeByte .badIndex = 0x02 ∧
  codeByte .badOperand = 0x03 ∧ codeByte .noPreset = 0x04 ∧ codeByte .loadNops = 0x10 ∧
  codeByte .loadNoCarrier = 0x11 ∧ codeByte .loadCarrierRange = 0x12 ∧
  codeByte .loadEdgeRange = 0x13 ∧ codeByte .loadFbRange = 0x14 ∧ codeByte .loadCycle = 0x15

/-- The commands whose `OK` response may carry data other than zero (R90). -/
def Sys2Proof.Machine.answersData (i : Instr) : Prop :=
  i = .tick ∨ (∃ v o, i = .envrd v o) ∨ (∃ v o, i = .envst v o) ∨ ∃ v, i = .vact v

/-- R90, R220: whatever word is taken from the port, the step takes a next state and gives exactly one
response word; its data is zero but for the `OK` responses of `TICK`, `ENVRD`, `ENVST` and `VACT`. -/
def Obligations.EveryWordGetsOneResponse : Prop :=
  ∀ (s : State) (w : CommandWord) (rest : List CommandWord), s.inbox = w :: rest →
    ∃ t code data, step s = .next t ∧ t.inbox = rest ∧
      t.outbox = s.outbox ++ [responseWord code data] ∧
      (data ≠ 0 → code = .ok ∧ ∃ i, decode w = .ok i ∧ answersData i)

/-- R220, R230: a command that answers with a code other than `OK` has changed nothing: the next state is
the state before with one response word given, its data zero. -/
def Obligations.RefusedCommandChangesNothing : Prop :=
  ∀ (i : Instr) (s t : State) (code : Code) (data : BitVec 64),
    exec i s = .next t → t.outbox = s.outbox ++ [responseWord code data] → code ≠ .ok →
      t = answered s code 0

/-- The causes of `BAD_INDEX` as R223 lists them. -/
def Sys2Proof.Machine.badIndexCause (i : Instr) : Prop :=
  match i with
  | .keyon v _ => 132 ≤ v.toNat
  | .keyoff v => 132 ≤ v.toNat
  | .envrd v o => 132 ≤ v.toNat ∨ 36 ≤ o.toNat
  | .envst v o => 132 ≤ v.toNat ∨ 36 ≤ o.toNat
  | .vact v => 132 ≤ v.toNat
  | .pcarr o => 36 ≤ o.toNat
  | .pfbk src tgt => 36 ≤ src.toNat ∨ 36 ≤ tgt.toNat
  | .pmod m o => 36 ≤ m.toNat ∨ 36 ≤ o.toNat
  | .popi o sel _ => 36 ≤ o.toNat ∨ 15 ≤ sel.toNat
  | .popf o sel _ => 36 ≤ o.toNat ∨ 2 ≤ sel.toNat
  | .pnops n => 36 < n.toNat
  | .fcfg i k => numFilters openParams ≤ i.toNat ∨ 4 ≤ k.toNat
  | .fparam i sel _ => numFilters openParams ≤ i.toNat ∨ 4 ≤ sel.toNat
  | .chaddsum i => numFilters openParams ≤ i.toNat
  | .chaddlink i => numFilters openParams ≤ i.toNat
  | .chremove i => numFilters openParams ≤ i.toNat
  | .chswap i j => numFilters openParams ≤ i.toNat ∨ numFilters openParams ≤ j.toNat
  | .tick => False
  | .alloff => False
  | .setgain _ => False
  | .chclear => False
  | .pclear => False
  | .loadpreset => False

/-- R223: a command is answered `BAD_INDEX` exactly when one of the listed causes holds, and then nothing
else happens. -/
def Obligations.BadIndexExactlyOnListedCauses : Prop :=
  ∀ (i : Instr) (s : State),
    (badIndexCause i → exec i s = .next (answered s .badIndex 0)) ∧
    (∀ t data, exec i s = .next t → t.outbox = s.outbox ++ [responseWord .badIndex data] →
      badIndexCause i)

/-- The causes of `BAD_OPERAND` as R224 lists them. -/
def Sys2Proof.Machine.badOperandCause (i : Instr) : Prop :=
  match i with
  | .keyon _ f => isFinite f = false
  | .setgain g => isFinite g = false
  | .fparam _ sel x => isFinite x = false ∨ (sel = 0 ∧ fLt posZero x = false)
  | .popf _ _ x => isFinite x = false
  | .tick => False
  | .keyoff _ => False
  | .alloff => False
  | .envrd _ _ => False
  | .envst _ _ => False
  | .vact _ => False
  | .fcfg _ _ => False
  | .chaddsum _ => False
  | .chaddlink _ => False
  | .chremove _ => False
  | .chswap _ _ => False
  | .chclear => False
  | .pclear => False
  | .pnops _ => False
  | .pcarr _ => False
  | .pfbk _ _ => False
  | .pmod _ _ => False
  | .popi _ _ _ => False
  | .loadpreset => False

/-- R224, R229: a command with no index fault is answered `BAD_OPERAND` exactly when one of the listed
causes holds; an index fault comes first. -/
def Obligations.BadOperandExactlyOnListedCauses : Prop :=
  ∀ (i : Instr) (s : State),
    (badOperandCause i → ¬ badIndexCause i → exec i s = .next (answered s .badOperand 0)) ∧
    (∀ t data, exec i s = .next t → t.outbox = s.outbox ++ [responseWord .badOperand data] →
      badOperandCause i ∧ ¬ badIndexCause i)

/-- The codes besides `OK` a command can give (the table of R227). -/
def Sys2Proof.Machine.codesOf (i : Instr) : List Code :=
  match i with
  | .tick => []
  | .alloff => []
  | .chclear => []
  | .pclear => []
  | .keyon _ _ => [.badIndex, .badOperand, .noPreset]
  | .keyoff _ => [.badIndex]
  | .vact _ => [.badIndex]
  | .envrd _ _ => [.badIndex]
  | .envst _ _ => [.badIndex]
  | .setgain _ => [.badOperand]
  | .fcfg _ _ => [.badIndex]
  | .chaddsum _ => [.badIndex]
  | .chaddlink _ => [.badIndex]
  | .chremove _ => [.badIndex]
  | .chswap _ _ => [.badIndex]
  | .fparam _ _ _ => [.badIndex, .badOperand]
  | .pnops _ => [.badIndex]
  | .pcarr _ => [.badIndex]
  | .pfbk _ _ => [.badIndex]
  | .pmod _ _ => [.badIndex]
  | .popi _ _ _ => [.badIndex]
  | .popf _ _ _ => [.badIndex, .badOperand]
  | .loadpreset =>
    [.loadNops, .loadNoCarrier, .loadCarrierRange, .loadEdgeRange, .loadFbRange, .loadCycle]

/-- R227: a command answers with `OK` or with a code that its row of the table lists, never with another
code. -/
def Obligations.CodesLimitedToTable : Prop :=
  ∀ (i : Instr) (s t : State), exec i s = .next t →
    ∃ code data, t.outbox = s.outbox ++ [responseWord code data] ∧ (code = .ok ∨ code ∈ codesOf i)

/-- R225, R229: with no preset loaded a `KEYON` whose operands are accepted is answered `NO_PRESET` and
nothing else happens, and no other command ever gives that answer. -/
def Obligations.NoPresetExactlyOnUnloadedKeyon : Prop :=
  (∀ (s : State) (a : BitVec 8) (f : F64), a.toNat < 132 → isFinite f = true →
    s.block.active.count = 0 → exec (.keyon a f) s = .next (answered s .noPreset 0)) ∧
  (∀ (i : Instr) (s t : State) (data : BitVec 64), exec i s = .next t →
    t.outbox = s.outbox ++ [responseWord .noPreset data] →
      (∃ a f, i = .keyon a f) ∧ s.block.active.count = 0)

/-! ### Reset -/

/-- R35, R48: every state element has the listed value after reset. That State also holds the filter units
from `NUM_FILTERS` on, with the same values, is the model's choice, log entry 6. -/
def Obligations.ResetValues : Prop :=
  let b := State.reset.block
  (∀ pr ∈ [b.active, b.staged], pr.count = 0 ∧ pr.carriers = 0 ∧ (∀ o : Op, pr.mods[o] = 0) ∧
    pr.fbSource = 0 ∧ pr.fbTarget = 0 ∧
    ∀ o : Op, (∀ f : IntField, readInt pr.records[o] f = 0) ∧ pr.records[o].ratio = posZero ∧
      pr.records[o].bpCenter = posZero) ∧
  (∀ v : Voice, b.voices[v].elapsed = 0 ∧ b.voices[v].carrierActive = 0 ∧
    b.voices[v].active = false ∧
    ∀ o : Op, b.voices[v].ops[o].rate = posZero ∧ b.voices[v].ops[o].bpMul = posZero ∧
      envCode b.voices[v].ops[o].env.state = 6 ∧ b.voices[v].ops[o].env.startAmp = posZero ∧
      b.voices[v].ops[o].env.endAmp = posZero ∧ b.voices[v].ops[o].env.amp = posZero ∧
      b.voices[v].ops[o].env.pos = 0 ∧ b.voices[v].ops[o].env.size = 1) ∧
  b.gain = f64One ∧
  (∀ i : Fid, b.filters[i].kind = .lowPass ∧ b.filters[i].ffs = i2f (sampleRate openParams) ∧
    b.filters[i].ffreq = posZero ∧
    b.filters[i].fq = fclamp f64One (qMin openParams) (qMax openParams) ∧
    b.filters[i].flevel = posZero ∧ b.filters[i].b0 = f64One ∧ b.filters[i].b1 = posZero ∧
    b.filters[i].b2 = posZero ∧ b.filters[i].a1 = posZero ∧ b.filters[i].a2 = posZero ∧
    b.filters[i].x1 = posZero ∧ b.filters[i].x2 = posZero ∧ b.filters[i].y1 = posZero ∧
    b.filters[i].y2 = posZero) ∧
  b.chain = []

/-- R240, R241, R242: reset applied in any state gives every state element its reset value and leaves the
noise input as it is; and what the first command does in a state whose state elements have their reset
values, whatever waits at the inputs: `TICK` answers `+0.0` and leaves everything as it is, `KEYON` is
refused with `NO_PRESET`, `KEYOFF` and `ALLOFF` do nothing, `LOADPRESET` is refused with `LOAD_NOPS`, the
reads give IDLE, `+0.0` and 0. The inputs as fields of State, and that reset leaves them, are the model's
choice, log entries 1, 4 and 11. -/
def Obligations.FirstCommandAfterReset : Prop :=
  (∀ s : State, (resetBlock openParams s).block = State.reset.block ∧
    (resetBlock openParams s).noise = s.noise) ∧
  ∀ s : State, s.block = State.reset.block →
    exec .tick s = .next (answered s .ok posZero) ∧
    exec .alloff s = .next (answered s .ok 0) ∧
    exec .loadpreset s = .next (answered s .loadNops 0) ∧
    ∀ (a b : BitVec 8) (f : F64), a.toNat < 132 → b.toNat < 36 → isFinite f = true →
      exec (.keyon a f) s = .next (answered s .noPreset 0) ∧
      exec (.keyoff a) s = .next (answered s .ok 0) ∧
      exec (.envst a b) s = .next (answered s .ok 6) ∧
      exec (.envrd a b) s = .next (answered s .ok posZero) ∧
      exec (.vact a) s = .next (answered s .ok 0)

/-! ### Invariants -/

/-- R25, R34, R35, R40, R48: after reset the invariants (I-a) to (I-f) hold and everything the stores hold is
legal; that the units the instantiation does not have hold their reset values is the model's choice, log
entry 6. -/
def Obligations.ResetMeetsInvariants : Prop :=
  BlockInv State.reset.block ∧ StoresLegal openParams State.reset.block

/-- R40: every step keeps the invariants (I-a) to (I-f), from every state in which they hold. -/
def Obligations.StepKeepsBlockInvariant : Prop :=
  ∀ s t : State, BlockInv s.block → step s = .next t → BlockInv t.block

/-- R25, R41: every step keeps everything the stores hold legal, from every state in which it is; the
filter units the instantiation does not have (the model's choice, log entry 6) keep their reset values. -/
def Obligations.StepKeepsStoresLegal : Prop :=
  ∀ s t : State, StoresLegal openParams s.block → step s = .next t → StoresLegal openParams t.block

/-- R33, R41, R63, R155: what no command writes but the listed ones: an element of the presets, the gain, the
chain, the filter units or the voices differs after a command only where the command is one of its
writers (of R41's writers of `CACT`, `KEYON` writes `ACTIVE` alone, R155). That only `TICK` draws from the
noise input is said of the model's own field, log entry 4. -/
def Obligations.OnlyListedCommandsWrite : Prop :=
  ∀ (i : Instr) (s t : State), exec i s = .next t →
    (t.block.gain ≠ s.block.gain → ∃ g, i = .setgain g) ∧
    (t.block.active ≠ s.block.active → i = .loadpreset) ∧
    (t.block.staged.count ≠ s.block.staged.count → (∃ n, i = .pnops n) ∨ i = .pclear) ∧
    (t.block.staged.carriers ≠ s.block.staged.carriers → (∃ o, i = .pcarr o) ∨ i = .pclear) ∧
    (t.block.staged.fbSource ≠ s.block.staged.fbSource ∨
      t.block.staged.fbTarget ≠ s.block.staged.fbTarget → (∃ a b, i = .pfbk a b) ∨ i = .pclear) ∧
    (t.block.staged.mods ≠ s.block.staged.mods → (∃ a b, i = .pmod a b) ∨ i = .pclear) ∧
    (∀ o : Op,
      ((∃ f, readInt t.block.staged.records[o] f ≠ readInt s.block.staged.records[o] f) →
        (∃ a sel x, i = .popi a sel x) ∨ i = .pclear) ∧
      (t.block.staged.records[o].ratio ≠ s.block.staged.records[o].ratio ∨
        t.block.staged.records[o].bpCenter ≠ s.block.staged.records[o].bpCenter →
        (∃ a sel x, i = .popf a sel x) ∨ i = .pclear)) ∧
    (t.block.chain ≠ s.block.chain → (∃ a, i = .chaddsum a) ∨ (∃ a, i = .chaddlink a) ∨
      (∃ a, i = .chremove a) ∨ (∃ a b, i = .chswap a b) ∨ i = .chclear ∨ i = .loadpreset) ∧
    (∀ k : Fid, (t.block.filters[k].kind ≠ s.block.filters[k].kind → ∃ a b, i = .fcfg a b) ∧
      ((t.block.filters[k].ffs ≠ s.block.filters[k].ffs ∨
        t.block.filters[k].ffreq ≠ s.block.filters[k].ffreq ∨
        t.block.filters[k].fq ≠ s.block.filters[k].fq ∨
        t.block.filters[k].flevel ≠ s.block.filters[k].flevel) → ∃ a b x, i = .fparam a b x) ∧
      ((t.block.filters[k].x1 ≠ s.block.filters[k].x1 ∨
        t.block.filters[k].x2 ≠ s.block.filters[k].x2 ∨
        t.block.filters[k].y1 ≠ s.block.filters[k].y1 ∨
        t.block.filters[k].y2 ≠ s.block.filters[k].y2) → i = .tick ∨ ∃ a b, i = .fcfg a b) ∧
      ((t.block.filters[k].b0 ≠ s.block.filters[k].b0 ∨
        t.block.filters[k].b1 ≠ s.block.filters[k].b1 ∨
        t.block.filters[k].b2 ≠ s.block.filters[k].b2 ∨
        t.block.filters[k].a1 ≠ s.block.filters[k].a1 ∨
        t.block.filters[k].a2 ≠ s.block.filters[k].a2) →
        (∃ a b, i = .fcfg a b) ∨ ∃ a b x, i = .fparam a b x)) ∧
    (∀ v : Voice,
      (t.block.voices[v].active ≠ s.block.voices[v].active ∨
        t.block.voices[v].elapsed ≠ s.block.voices[v].elapsed →
        (∃ a f, i = .keyon a f) ∨ i = .tick ∨ i = .loadpreset) ∧
      (t.block.voices[v].carrierActive ≠ s.block.voices[v].carrierActive →
        i = .tick ∨ i = .loadpreset) ∧
      ∀ o : Op,
        ((t.block.voices[v].ops[o].rate ≠ s.block.voices[v].ops[o].rate ∨
          t.block.voices[v].ops[o].bpMul ≠ s.block.voices[v].ops[o].bpMul) →
          (∃ a f, i = .keyon a f) ∨ i = .loadpreset) ∧
        (t.block.voices[v].ops[o].env ≠ s.block.voices[v].ops[o].env →
          i = .tick ∨ (∃ a f, i = .keyon a f) ∨ (∃ a, i = .keyoff a) ∨ i = .alloff ∨
            i = .loadpreset)) ∧
    (t.noise ≠ s.noise → i = .tick)

/-! ### Topology -/

/-- R39: `REACH` is the set of the operators from which a path of modulation edges leads to a carrier. -/
def Obligations.ReachIsPathsToCarriers : Prop :=
  ∀ (pr : Preset) (o : Op), inSet (reach pr) o = true ↔
    ∃ c, inSet pr.carriers c = true ∧ Relation.ReflTransGen (Edge pr.mods) o c

/-- R213: the cycle test of the load answers yes exactly when some path of modulation edges leads from an
operator back to itself. -/
def Obligations.CycleTestFindsExactlyCycles : Prop :=
  ∀ mods : Vector OpSet maxOps, hasCycle mods = true ↔ Cyclic mods

/-- R39: where the edges have no cycle, `EVAL_ORDER` lists every member of `REACH` once, every modulator
before its target, and each time the largest operator that may come next: a larger one that comes later
still has a modulator that has not come before. -/
def Obligations.EvalOrderListsReachModulatorsFirst : Prop :=
  ∀ pr : Preset, ¬ Cyclic pr.mods →
    (evalOrder pr).Nodup ∧ (∀ o, o ∈ evalOrder pr ↔ inSet (reach pr) o = true) ∧
    (∀ (before after : List Op) (o m : Op), evalOrder pr = before ++ o :: after →
      Edge pr.mods m o → m ∈ before) ∧
    ∀ (before after : List Op) (o later : Op), evalOrder pr = before ++ o :: after →
      later ∈ after → o < later → ∃ m, Edge pr.mods m later ∧ m ∉ before

/-- R140, R141: the cascades of `OpStart` and `OpStop` from every carrier, as those rules write them, do
what one start or one release of each operator in `REACH` does, which is how the model computes them (log
entry 7). -/
def Obligations.CascadesEqualOncePerReached : Prop :=
  ∀ (P : OpenParams) (pr : Preset) (f : F64) (ops : Vector OpSlot maxOps),
    (members pr.carriers).foldl (fun acc c => opStart P pr f maxOps c acc) ops =
      startOps P pr f ops ∧
    (members pr.carriers).foldl (fun acc c => opStop P pr maxOps c acc) ops = stopOps P pr ops

/-! ### Envelope -/

/-- R108, R109, R110: `EnvInit` arms ATTACK from the present amplitude in every state; `EnvRelease` arms
RELEASE from it in ATTACK, DECAY, SUSTAIN and HOLD and does nothing in the other three states;
`EnvReset` makes any slot cold. -/
def Obligations.EnvelopeArming : Prop :=
  ∀ (P : OpenParams) (r : OpRecord) (e : EnvSlot),
    envInit P r e = { state := .attack, startAmp := e.amp, endAmp := levelLut P r.levelA.toNat,
                      amp := e.amp, pos := 0, size := segSamples P r.speedA.toNat } ∧
    (e.state ∈ [EnvState.attack, .decay, .sustain, .hold] →
      envRelease P r e =
        { state := .release, startAmp := e.amp, endAmp := levelLut P r.levelR.toNat, amp := e.amp,
          pos := 0, size := segSamples P r.speedR.toNat }) ∧
    (e.state ∈ [EnvState.release, .preIdle, .idle] → envRelease P r e = e) ∧
    envReset e = { state := .idle, startAmp := posZero, endAmp := posZero, amp := posZero,
                   pos := 0, size := 1 }

/-- R104, R106: `EnvStep` before the last sample of a timed segment advances the position by one and
interpolates the amplitude at the new position, and keeps the rest; in HOLD and in IDLE it writes
nothing. -/
def Obligations.EnvelopeStepsWithinSegment : Prop :=
  ∀ (P : OpenParams) (r : OpRecord) (e : EnvSlot),
    (e.state ∈ [EnvState.attack, .decay, .sustain, .release, .preIdle] → e.pos + 1 < e.size →
      envStep P r e = { e with
        pos := e.pos + 1
        amp := fAdd P e.startAmp (fMul P (fSub P e.endAmp e.startAmp)
          (fDiv P (i2f (e.pos + 1)) (i2f e.size))) }) ∧
    (e.state = .hold ∨ e.state = .idle → envStep P r e = e)

/-- R104, R105, R107: at the sample where a timed segment completes the slot enters the next state of the
sequence, and what it produces is bit for bit the start of the next segment; where the next state is
not IDLE that is the completed segment's last interpolated value. -/
def Obligations.EnvelopeContinuity : Prop :=
  ∀ (P : OpenParams) (r : OpRecord) (e : EnvSlot), isTimed e.state = true → e.size ≤ e.pos + 1 →
    (envStep P r e).startAmp = (envStep P r e).amp ∧ (envStep P r e).pos = 0 ∧
    (e.state ≠ .preIdle → (envStep P r e).amp =
      fAdd P e.startAmp (fMul P (fSub P e.endAmp e.startAmp)
        (fDiv P (i2f (e.pos + 1)) (i2f e.size)))) ∧
    (e.state = .attack → (envStep P r e).state = .decay ∧
      (envStep P r e).endAmp = levelLut P r.levelD.toNat ∧
      (envStep P r e).size = segSamples P r.speedD.toNat) ∧
    (e.state = .decay → (envStep P r e).state = .sustain ∧
      (envStep P r e).endAmp = levelLut P r.levelS.toNat ∧
      (envStep P r e).size = segSamples P r.speedS.toNat) ∧
    (e.state = .sustain → (envStep P r e).state = .hold ∧
      (envStep P r e).endAmp = (envStep P r e).amp ∧ (envStep P r e).size = 1) ∧
    (e.state = .release → (envStep P r e).state = .preIdle ∧ (envStep P r e).endAmp = posZero ∧
      (envStep P r e).size = preIdleSamples P) ∧
    (e.state = .preIdle → envStep P r e = EnvSlot.reset)

/-- R111 (a), (b): after `EnvInit`, the `k`-th step within the attack produces the interpolated amplitude
of its position, and with no release the slot enters HOLD at exactly the sum of the three lengths. -/
def Obligations.AttackAmplitudesAndHoldCount : Prop :=
  ∀ (P : OpenParams) (r : OpRecord) (e : EnvSlot),
    (∀ k, 1 ≤ k → k ≤ segSamples P r.speedA.toNat →
      (envSteps P r k (envInit P r e)).amp =
        fAdd P e.amp (fMul P (fSub P (levelLut P r.levelA.toNat) e.amp)
          (fDiv P (i2f k) (i2f (segSamples P r.speedA.toNat))))) ∧
    ∀ k, (envSteps P r k (envInit P r e)).state = .hold ↔
      segSamples P r.speedA.toNat + segSamples P r.speedD.toNat + segSamples P r.speedS.toNat ≤ k

/-- R111 (c): after an effective `EnvRelease` the slot is IDLE from exactly step
`LEN(RELEASE) + PRE_IDLE_SAMPLES` on, not one step earlier. -/
def Obligations.ReleaseReachesIdleExactly : Prop :=
  ∀ (P : OpenParams) (r : OpRecord) (e : EnvSlot), isReleasable e.state = true →
    ∀ k, (envSteps P r k (envRelease P r e)).state = .idle ↔
      segSamples P r.speedR.toNat + preIdleSamples P ≤ k

/-- R112, R113, R159: with their indices in range the three reads answer the addressed element and change
nothing. -/
def Obligations.ReadCommandsAnswerElement : Prop :=
  ∀ (s : State) (a b : BitVec 8) (v : Voice) (o : Op), a.toNat = v.val → b.toNat = o.val →
    exec (.envrd a b) s = .next (answered s .ok s.block.voices[v].ops[o].env.amp) ∧
    exec (.envst a b) s = .next (answered s .ok
      (match s.block.voices[v].ops[o].env.state with
        | .attack => 0 | .decay => 1 | .sustain => 2 | .hold => 3 | .release => 4 | .preIdle => 5
        | .idle => 6)) ∧
    exec (.vact a) s = .next (answered s .ok (if s.block.voices[v].active then 1 else 0))

/-! ### Note events -/

/-- `s` with one voice written. -/
def Sys2Proof.Machine.writeVoice (v : Voice) (vs : VoiceState) (s : State) : State :=
  { s with block.voices := s.block.voices.set v.val vs }

/-- R155, R140, R108, R125: a `KEYON` that is not refused writes one voice and nothing else: a voice that
was not active starts at time 0, every operator in `REACH` gets its rate, its multiplier and an armed
attack, every other slot stays, and the voice is active. -/
def Obligations.KeyonStartsReachedOperators : Prop :=
  ∀ (s : State) (a : BitVec 8) (f : F64) (v : Voice), a.toNat = v.val → isFinite f = true →
    s.block.active.count ≠ 0 →
    ∃ vs : VoiceState,
      exec (.keyon a f) s = .next (answered (writeVoice v vs s) .ok 0) ∧
      vs.active = true ∧
      vs.elapsed = (if s.block.voices[v].active then s.block.voices[v].elapsed else 0) ∧
      vs.carrierActive = s.block.voices[v].carrierActive ∧
      ∀ o : Op, vs.ops[o] =
        if inSet (reach s.block.active) o then
          { rate := fDiv openParams (fMul openParams s.block.active.records[o].ratio f)
              (i2f (sampleRate openParams)),
            bpMul := bpLevel openParams s.block.active.records[o] f,
            env := { state := .attack, startAmp := s.block.voices[v].ops[o].env.amp,
                     endAmp := levelLut openParams s.block.active.records[o].levelA.toNat,
                     amp := s.block.voices[v].ops[o].env.amp, pos := 0,
                     size := segSamples openParams s.block.active.records[o].speedA.toNat } }
        else s.block.voices[v].ops[o]

/-- The slot `[o][v]` after a note-off (R156, R109): a slot of `REACH` in ATTACK, DECAY, SUSTAIN or HOLD
is armed for RELEASE from its present amplitude, every other slot stays. -/
def Sys2Proof.Machine.releasedSlot (pr : Preset) (o : Op) (slot : OpSlot) : OpSlot :=
  if inSet (reach pr) o = true ∧ slot.env.state ∈ [EnvState.attack, .decay, .sustain, .hold] then
    { slot with env :=
      { state := .release, startAmp := slot.env.amp,
        endAmp := levelLut openParams pr.records[o].levelR.toNat, amp := slot.env.amp, pos := 0,
        size := segSamples openParams pr.records[o].speedR.toNat } }
  else slot

/-- R156: a `KEYOFF` with its voice in range releases that voice's reached operators and changes nothing
else; `ACTIVE` stays. -/
def Obligations.KeyoffReleasesReachedOperators : Prop :=
  ∀ (s : State) (a : BitVec 8) (v : Voice), a.toNat = v.val →
    ∃ ops : Vector OpSlot maxOps,
      exec (.keyoff a) s = .next (answered (writeVoice v { s.block.voices[v] with ops := ops } s)
        .ok 0) ∧
      ∀ o : Op, ops[o] = releasedSlot s.block.active o s.block.voices[v].ops[o]

/-- R157: `ALLOFF` releases the reached operators of every voice, active or not, and changes nothing
else. -/
def Obligations.AlloffReleasesEveryVoice : Prop :=
  ∀ s : State, ∃ voices : Vector VoiceState numVoices,
    exec .alloff s = .next (answered { s with block.voices := voices } .ok 0) ∧
    ∀ v : Voice, voices[v].elapsed = s.block.voices[v].elapsed ∧
      voices[v].carrierActive = s.block.voices[v].carrierActive ∧
      voices[v].active = s.block.voices[v].active ∧
      ∀ o : Op, voices[v].ops[o] = releasedSlot s.block.active o s.block.voices[v].ops[o]

/-- R70 (c): two `KEYON` commands for different voices leave the same block in either order. -/
def Obligations.KeyonsOfDifferentVoicesCommute : Prop :=
  ∀ (s s1 s2 t1 t2 : State) (a b : BitVec 8) (f g : F64), a ≠ b →
    exec (.keyon a f) s = .next s1 → exec (.keyon b g) s1 = .next s2 →
    exec (.keyon b g) s = .next t1 → exec (.keyon a f) t1 = .next t2 → s2.block = t2.block

/-- R158: `SETGAIN` stores its operand clamped to [0, 10] and changes nothing else. -/
def Obligations.SetgainClampsGain : Prop :=
  ∀ (s : State) (x : F64), isFinite x = true →
    let clamped := if fLt x 0x0000000000000000#64 then 0x0000000000000000#64
      else if fLt 0x4024000000000000#64 x then 0x4024000000000000#64 else x
    exec (.setgain x) s = .next (answered { s with block.gain := clamped } .ok 0)

/-! ### The sample tick -/

/-- R150, R152, R153: `TICK` always answers `OK` with a sample; the presets, the gain, the chain, every
filter unit's kind, parameters and coefficients, every unit outside the chain, every voice that is not
active, and the rates and multipliers of the others stay; the counter of each active voice advances
by one modulo `2^64`. -/
def Obligations.TickFrame : Prop :=
  ∀ s : State, ∃ t sample, exec .tick s = .next t ∧
    t.outbox = s.outbox ++ [responseWord .ok sample] ∧ t.inbox = s.inbox ∧
    t.block.active = s.block.active ∧ t.block.staged = s.block.staged ∧
    t.block.gain = s.block.gain ∧ t.block.chain = s.block.chain ∧
    (∀ v : Voice, s.block.voices[v].active = false → t.block.voices[v] = s.block.voices[v]) ∧
    (∀ v : Voice, s.block.voices[v].active = true →
      t.block.voices[v].elapsed = s.block.voices[v].elapsed + 1 ∧
      ∀ o : Op, t.block.voices[v].ops[o].rate = s.block.voices[v].ops[o].rate ∧
        t.block.voices[v].ops[o].bpMul = s.block.voices[v].ops[o].bpMul) ∧
    ∀ i : Fid, ((∀ st ∈ s.block.chain, st.fid ≠ i) → t.block.filters[i] = s.block.filters[i]) ∧
      t.block.filters[i] = { s.block.filters[i] with
        x1 := t.block.filters[i].x1, x2 := t.block.filters[i].x2,
        y1 := t.block.filters[i].y1, y2 := t.block.filters[i].y2 }

/-- R139, R152, R153: where the active edges have no cycle, a `TICK` steps the envelope of each operator
in `REACH` of each active voice exactly once and no other, records of each carrier whether it is still
not IDLE, and keeps in `ACTIVE` exactly the voices with such a carrier. -/
def Obligations.TickStepsReachedEnvelopesOnce : Prop :=
  ∀ s t : State, ¬ Cyclic s.block.active.mods → exec .tick s = .next t →
    ∀ v : Voice,
      (∀ o : Op, t.block.voices[v].ops[o].env =
        if s.block.voices[v].active && inSet (reach s.block.active) o then
          envStep openParams s.block.active.records[o] s.block.voices[v].ops[o].env
        else s.block.voices[v].ops[o].env) ∧
      (s.block.voices[v].active = true →
        (∀ c : Op, inSet s.block.active.carriers c = true →
          inSet t.block.voices[v].carrierActive c =
            (t.block.voices[v].ops[c].env.state != .idle)) ∧
        (∀ o : Op, inSet s.block.active.carriers o = false →
          inSet t.block.voices[v].carrierActive o = inSet s.block.voices[v].carrierActive o) ∧
        (t.block.voices[v].active = true ↔ ∃ c : Op, inSet s.block.active.carriers c = true ∧
          t.block.voices[v].ops[c].env.state ≠ .idle))

/-- R150, R176: with no active voice a `TICK` answers what the chain gives for `+0.0` times the gain. -/
def Obligations.SilentTickRunsChain : Prop :=
  ∀ s : State, (∀ v : Voice, s.block.voices[v].active = false) →
    exec .tick s = .next (answered { s with block.filters :=
        (chainProcess openParams s.block.chain (fMul openParams posZero s.block.gain)
          s.block.filters).2 } .ok
      (chainProcess openParams s.block.chain (fMul openParams posZero s.block.gain)
        s.block.filters).1)

/-- The loop of `TICK` over a list of voices (R150): the sum of their samples from `+0.0` in the list's order,
and the noise input after it, each voice drawing from what the one before left (R257). -/
def Sys2Proof.Machine.mixOf (P : OpenParams) (b : Block) (noise : NoiseInput) (vs : List Voice) :
    F64 × NoiseInput :=
  vs.foldl (fun acc v =>
    let r := voiceSample P b.active (evalOrder b.active) b.voices[v] acc.2
    (fAdd P acc.1 r.sample, r.noise)) (posZero, noise)

/-- R150, R176, R257: a `TICK` answers what the chain gives for the sum of the samples of the active voices,
added in ascending order of the voices from `+0.0`, times the gain; the noise draws pass from voice to
voice in that order, and each active voice's slots are those its evaluation at its turn leaves. With one
active voice the sum is `+0.0` plus that voice's sample. The noise input as a field of State is the
model's choice, log entry 4. -/
def Obligations.TickMixesActiveVoices : Prop :=
  (∀ (s : State) (actives : List Voice), actives.Pairwise (· < ·) →
    (∀ v : Voice, v ∈ actives ↔ s.block.voices[v].active = true) →
    let mixed := mixOf openParams s.block s.noise actives
    let out := chainProcess openParams s.block.chain (fMul openParams mixed.1 s.block.gain)
      s.block.filters
    ∃ t, exec .tick s = .next t ∧ t.outbox = s.outbox ++ [responseWord .ok out.1] ∧
      t.block.filters = out.2 ∧ t.noise = mixed.2 ∧
      ∀ (before after : List Voice) (v : Voice), actives = before ++ v :: after →
        t.block.voices[v].ops =
          (voiceSample openParams s.block.active (evalOrder s.block.active) s.block.voices[v]
            (mixOf openParams s.block s.noise before).2).voice.ops) ∧
  ∀ (s : State) (v : Voice), (∀ u : Voice, s.block.voices[u].active = decide (u = v)) →
    let r := voiceSample openParams s.block.active (evalOrder s.block.active) s.block.voices[v] s.noise
    let out := chainProcess openParams s.block.chain
      (fMul openParams (fAdd openParams posZero r.sample) s.block.gain) s.block.filters
    ∃ t, exec .tick s = .next t ∧ t.outbox = s.outbox ++ [responseWord .ok out.1] ∧
      t.block.filters = out.2 ∧ t.noise = r.noise ∧ t.block.voices[v].ops = r.voice.ops

/-- The waveform value of an operator for a voice whose operators' frames are `frames` (R139), and the noise
input after it. -/
def Sys2Proof.Machine.waveAt (P : OpenParams) (pr : Preset) (vs : VoiceState) (frames : Vector F64 maxOps)
    (o : Op) (noise : NoiseInput) : F64 × NoiseInput :=
  wave P pr.records[o].wave vs.ops[o].rate (modulation P pr o frames) posZero vs.elapsed noise

/-- The frame of R139 from the operator's waveform value `w`: times the output level, times the cached
multiplier, times the amplitude the envelope steps to, plus the feedback. -/
def Sys2Proof.Machine.frameFrom (P : OpenParams) (pr : Preset) (vs : VoiceState) (o : Op) (w : F64) : F64 :=
  fAdd P
    (fMul P (fMul P (fMul P w (outLut P pr.records[o].outLevel.toNat)) vs.ops[o].bpMul)
      (envStep P pr.records[o] vs.ops[o].env).amp)
    (feedback P pr o vs.ops[o].rate vs.elapsed)

/-- R139, R152, R257: the sample of a voice. Where the edges have no cycle there is one frame for every
operator in `REACH`: its waveform at the modulation those same frames give, times its output level, times
its cached multiplier, times the amplitude its envelope steps to, plus its feedback; the noise input
passes from operator to operator in `EVAL_ORDER`, from the voice's to the next voice's; and the sample is
the sum of the carriers' frames, added in ascending order from the first carrier's, divided by their count.
In particular, whatever the other edges are, with one carrier that has no modulator the modulation is
`+0.0` and the count is 1. The noise input as a field of State is the model's choice, log entry 4. -/
def Obligations.VoiceSampleEvaluatesGraph : Prop :=
  (∀ (P : OpenParams) (pr : Preset) (vs : VoiceState) (noise : NoiseInput), ¬ Cyclic pr.mods →
    ∃ (frames : Vector F64 maxOps) (input : Op → NoiseInput),
      (∀ o : Op, inSet (reach pr) o = true →
        frames[o] = frameFrom P pr vs o (waveAt P pr vs frames o (input o)).1) ∧
      (∀ (o : Op) (after : List Op), evalOrder pr = o :: after → input o = noise) ∧
      (∀ (before after : List Op) (o next : Op), evalOrder pr = before ++ o :: next :: after →
        input next = (waveAt P pr vs frames o (input o)).2) ∧
      (∀ (before : List Op) (o : Op), evalOrder pr = before ++ [o] →
        (voiceSample P pr (evalOrder pr) vs noise).noise = (waveAt P pr vs frames o (input o)).2) ∧
      ∀ (first : Op) (rest : List Op), (first :: rest).Pairwise (· < ·) →
        (∀ c : Op, c ∈ first :: rest ↔ inSet pr.carriers c = true) →
        (voiceSample P pr (evalOrder pr) vs noise).sample =
          fDiv P (rest.foldl (fun sum c => fAdd P sum frames[c]) frames[first])
            (i2f (rest.length + 1))) ∧
  ∀ (P : OpenParams) (pr : Preset) (c : Op) (vs : VoiceState) (noise : NoiseInput),
    (∀ o : Op, inSet pr.carriers o = decide (o = c)) → modSet pr c = 0 →
    (voiceSample P pr (evalOrder pr) vs noise).sample =
      fDiv P
        (frameFrom P pr vs c
          (wave P pr.records[c].wave vs.ops[c].rate posZero posZero vs.elapsed noise).1)
        (i2f 1)

/-- R137: the modulation of an operator is the sum of its modulators' frames, added in ascending order from
the first one's frame, divided by their count, and `+0.0` where it has none. -/
def Obligations.ModulationAveragesFrames : Prop :=
  ∀ (P : OpenParams) (pr : Preset) (o : Op) (frames : Vector F64 maxOps),
    (modSet pr o = 0 → modulation P pr o frames = posZero) ∧
    ∀ (first : Op) (rest : List Op), (first :: rest).Pairwise (· < ·) →
      (∀ k : Op, k ∈ first :: rest ↔ inSet (modSet pr o) k = true) →
      modulation P pr o frames =
        fDiv P (rest.foldl (fun sum m => fAdd P sum frames[m]) frames[first])
          (i2f (rest.length + 1))

/-- R138: the feedback of an operator is `+0.0` where it is not the feedback source or its depth is 0;
else the sum from `+0.0` of five harmonics, each the sine at `h` times the operator's rate divided by
`h`, times the table's factor: `h` is 2 to 6 for a positive depth and 3, 5, 7, 9, 11 for a negative
one. -/
def Obligations.FeedbackSumsHarmonics : Prop :=
  ∀ (P : OpenParams) (pr : Preset) (o : Op) (rate : F64) (t : BitVec 64),
    let depth := pr.records[o].fbDepth.toInt
    let term := fun h : Nat =>
      fDiv P (fSin P (fMul P (fMul P f64TwoPi (fMul P (i2f h) rate)) (i2f t.toNat))) (i2f h)
    let sum5 := fun a b c d e : Nat =>
      fAdd P (fAdd P (fAdd P (fAdd P (fAdd P posZero (term a)) (term b)) (term c)) (term d)) (term e)
    (o.val ≠ pr.fbSource.toNat ∨ depth = 0 → feedback P pr o rate t = posZero) ∧
    (o.val = pr.fbSource.toNat → 0 < depth →
      feedback P pr o rate t = fMul P (fbLut P depth) (sum5 2 3 4 5 6)) ∧
    (o.val = pr.fbSource.toNat → depth < 0 →
      feedback P pr o rate t = fMul P (fbLut P depth) (sum5 3 5 7 9 11))

/-- R160, R135: the sample and the block after a `TICK` do not depend on the noise draws where no operator
in `REACH` has the noise waveform, and then no draw is taken. The noise input as a field of State, with an
open sequence behind it, is the model's choice, log entry 4. -/
def Obligations.TickWithoutNoiseIsDeterministic : Prop :=
  ∀ (P : OpenParams) (sequence : Nat → F64) (b : Block) (n n' : NoiseInput),
    (∀ o : Op, inSet (reach b.active) o = true → b.active.records[o].wave ≠ 4) →
    (tickBlock P b n).1 = (tickBlock { P with noiseDraw := sequence } b n').1 ∧
    (tickBlock P b n).2.1 = (tickBlock { P with noiseDraw := sequence } b n').2.1 ∧
    (tickBlock P b n).2.2 = n

/-- R131, R133, R135: the waveform by kind: the sine of the phase of R133, its sign, the triangle and the
sawtooth of R133, a noise value in [-1, 1], and `+0.0` for every kind from 5 on. Only the noise kind takes
a draw; a value in [-1, 1] that waits first at the noise input is the draw, and each draw moves the input on
by one. The noise input as a field of State, with an open sequence behind it, is the model's
choice, log entry 4. -/
def Obligations.WaveByKind : Prop :=
  ∀ (P : OpenParams) (rate modulation phase : F64) (t : BitVec 64) (noise : NoiseInput),
    let tf := i2f t.toNat
    let sine := fSin P (fAdd P (fAdd P (fMul P (fMul P f64TwoPi rate) tf) modulation) phase)
    wave P 0 rate modulation phase t noise = (sine, noise) ∧
    wave P 1 rate modulation phase t noise = (fSign sine, noise) ∧
    wave P 2 rate modulation phase t noise = (fMul P f64TwoOverPi (fAsin P sine), noise) ∧
    wave P 3 rate modulation phase t noise =
      (fNeg (fMul P f64TwoOverPi (fAtan P (fCot P
        (fAdd P (fAdd P (fMul P (fMul P f64Pi tf) rate) modulation) phase)))), noise) ∧
    (fLe f64MinusOne (wave P 4 rate modulation phase t noise).1 = true ∧
      fLe (wave P 4 rate modulation phase t noise).1 f64One = true ∧
      (wave P 4 rate modulation phase t noise).2.taken = noise.taken + 1 ∧
      (wave P 4 rate modulation phase t noise).2.waiting = noise.waiting.tail ∧
      ∀ (x : F64) (rest : List F64), noise.waiting = x :: rest → fLe f64MinusOne x = true →
        fLe x f64One = true → (wave P 4 rate modulation phase t noise).1 = x) ∧
    ∀ kind : BitVec 8, 5 ≤ kind.toNat → wave P kind rate modulation phase t noise = (posZero, noise)

/-- R154: with one carrier `c`, after a `KEYOFF` of an active voice whose carrier was in ATTACK, DECAY,
SUSTAIN or HOLD, `VACT` answers 1 after each of the first `LEN(c, RELEASE) + PRE_IDLE_SAMPLES - 1`
ticks and 0 after every later one. -/
def Obligations.VoiceReclaimedAfterExactCount : Prop :=
  ∀ (s s' : State) (a : BitVec 8) (v : Voice) (c : Op), a.toNat = v.val →
    ¬ Cyclic s.block.active.mods → (∀ o : Op, inSet s.block.active.carriers o = decide (o = c)) →
    s.block.voices[v].active = true → isReleasable s.block.voices[v].ops[c].env.state = true →
    exec (.keyoff a) s = .next s' →
    ∀ k, exec (.vact a) (ticks openParams k s') =
      .next (answered (ticks openParams k s') .ok
        (if k < segSamples openParams s.block.active.records[c].speedR.toNat +
            preIdleSamples openParams then 1 else 0))

/-! ### Breakpoint -/

/-- R126: at the center the multiplier is exactly 1 for every depth and curve; on a side whose depth is 0
it is 1 for every frequency of that side. -/
def Obligations.BreakpointIdentityAndNoop : Prop :=
  ∀ (P : OpenParams) (r : OpRecord) (f : F64),
    (fEq f r.bpCenter = true → bpLevel P r f = f64One) ∧
    (fLt f r.bpCenter = true → r.bpLDepth = 0 → bpLevel P r f = f64One) ∧
    (fLt r.bpCenter f = true → r.bpRDepth = 0 → bpLevel P r f = f64One)

/-- The ratio of R125 on the side on which `f` lies: the position of `f` between the bound of the side and the
center, by `PCTPOS` of R122, divided by 100, and 1 minus that above the center. -/
def Sys2Proof.Machine.sideRatio (P : OpenParams) (r : OpRecord) (f : F64) : F64 :=
  let percent := fun a b : F64 => fMul P (fDiv P (fSub P f a) (fSub P b a)) f64Hundred
  if fLt f r.bpCenter then
    fDiv P (percent (bpLower P r.bpCenter r.bpLDepth.toNat) r.bpCenter) f64Hundred
  else
    fSub P f64One
      (fDiv P (percent r.bpCenter (bpUpper P r.bpCenter r.bpRDepth.toNat)) f64Hundred)

/-- R122, R124, R125: off the center, on a side whose depth is not 0, the multiplier is the side's curve at
the side's ratio clamped to [0, 1], itself clamped to [0, 2]. Whatever the depths, the multiplier lies in
[0, 2], or it is a NaN; and a NaN only off the center, on a side of a depth other than 0 whose ratio is a
NaN (the clamp passes a NaN on). -/
def Obligations.BreakpointLevelBySide : Prop :=
  ∀ (P : OpenParams) (r : OpRecord) (f : F64),
    (fLt f r.bpCenter = true → r.bpLDepth ≠ 0 →
      bpLevel P r f = fclamp (bpCurve P r.bpLCurve.toNat (fclamp (sideRatio P r f) posZero f64One))
        posZero f64Two) ∧
    (fLt r.bpCenter f = true → r.bpRDepth ≠ 0 →
      bpLevel P r f = fclamp (bpCurve P r.bpRCurve.toNat (fclamp (sideRatio P r f) posZero f64One))
        posZero f64Two) ∧
    (isNaN (bpLevel P r f) = true ∨
      (fLe posZero (bpLevel P r f) = true ∧ fLe (bpLevel P r f) f64Two = true)) ∧
    (isNaN (bpLevel P r f) = true → isNaN (sideRatio P r f) = true ∧ fEq f r.bpCenter = false ∧
      if fLt f r.bpCenter then r.bpLDepth ≠ 0 else r.bpRDepth ≠ 0)

/-! ### Filters and chain -/

/-- The coefficients of R188 for the unit's kind and parameters. -/
def Sys2Proof.Machine.HasCoefficients (P : OpenParams) (u : FilterUnit) : Prop :=
  let w := fDiv P (fMul P 0x401921FB54442D18#64 u.ffreq) u.ffs
  let cw := fCos P w
  let al := fDiv P (fSin P w) (fMul P f64Two u.fq)
  let a0 := fAdd P f64One al
  u.a1 = fDiv P (fNeg (fMul P f64Two cw)) a0 ∧ u.a2 = fDiv P (fSub P f64One al) a0 ∧
  (u.kind = .lowPass →
    u.b0 = fDiv P (fDiv P (fSub P f64One cw) f64Two) a0 ∧ u.b1 = fDiv P (fSub P f64One cw) a0 ∧
    u.b2 = fDiv P (fDiv P (fSub P f64One cw) f64Two) a0) ∧
  (u.kind = .highPass →
    u.b0 = fDiv P (fDiv P (fAdd P f64One cw) f64Two) a0 ∧
    u.b1 = fDiv P (fNeg (fAdd P f64One cw)) a0 ∧
    u.b2 = fDiv P (fDiv P (fAdd P f64One cw) f64Two) a0) ∧
  (u.kind = .bandPass →
    u.b0 = fDiv P al a0 ∧ u.b1 = fDiv P posZero a0 ∧ u.b2 = fDiv P (fNeg al) a0)

/-- R186, R188, R197: an `FCFG` that is not refused writes one unit: the kind of its operand, a zero
history, the parameters kept, and the coefficients of R188, or, for a distortion unit, those it had. -/
def Obligations.FcfgConfiguresUnit : Prop :=
  ∀ (s : State) (a b : BitVec 8) (i : Fid), a.toNat = i.val → i.val < numFilters openParams →
    b.toNat < 4 →
    ∃ u : FilterUnit,
      exec (.fcfg a b) s =
        .next (answered { s with block.filters := s.block.filters.set i.val u } .ok 0) ∧
      u.kind = (match b.toNat with
        | 0 => .lowPass | 1 => .highPass | 2 => .bandPass | _ => .distortion) ∧
      u.x1 = posZero ∧ u.x2 = posZero ∧ u.y1 = posZero ∧ u.y2 = posZero ∧
      u.ffs = s.block.filters[i].ffs ∧ u.ffreq = s.block.filters[i].ffreq ∧
      u.fq = s.block.filters[i].fq ∧ u.flevel = s.block.filters[i].flevel ∧
      (b.toNat < 3 → HasCoefficients openParams u) ∧
      (b.toNat = 3 → u.b0 = s.block.filters[i].b0 ∧ u.b1 = s.block.filters[i].b1 ∧
        u.b2 = s.block.filters[i].b2 ∧ u.a1 = s.block.filters[i].a1 ∧
        u.a2 = s.block.filters[i].a2)

/-- R187, R188: an `FPARAM` that is not refused writes the addressed parameter of one unit, `FQ` clamped
to `[Q_MIN, Q_MAX]` and `FLEVEL` to [0, 5]; the kind, the history and the other parameters are kept;
`FFS`, `FFREQ` and `FQ` recompute a biquad's coefficients, `FLEVEL` and a distortion unit keep them. -/
def Obligations.FparamStoresParameter : Prop :=
  ∀ (s : State) (a b : BitVec 8) (x : F64) (i : Fid), a.toNat = i.val →
    i.val < numFilters openParams → b.toNat < 4 → isFinite x = true →
    (b = 0 → fLt posZero x = true) →
    ∃ u : FilterUnit,
      exec (.fparam a b x) s =
        .next (answered { s with block.filters := s.block.filters.set i.val u } .ok 0) ∧
      u.kind = s.block.filters[i].kind ∧ u.x1 = s.block.filters[i].x1 ∧
      u.x2 = s.block.filters[i].x2 ∧ u.y1 = s.block.filters[i].y1 ∧
      u.y2 = s.block.filters[i].y2 ∧
      u.ffs = (if b = 0 then x else s.block.filters[i].ffs) ∧
      u.ffreq = (if b = 1 then x else s.block.filters[i].ffreq) ∧
      u.fq = (if b = 2 then fclamp x (qMin openParams) (qMax openParams)
        else s.block.filters[i].fq) ∧
      u.flevel = (if b = 3 then fclamp x posZero f64Five else s.block.filters[i].flevel) ∧
      (b ≠ 3 ∧ s.block.filters[i].kind ≠ .distortion → HasCoefficients openParams u) ∧
      (b = 3 ∨ s.block.filters[i].kind = .distortion →
        u.b0 = s.block.filters[i].b0 ∧ u.b1 = s.block.filters[i].b1 ∧
        u.b2 = s.block.filters[i].b2 ∧ u.a1 = s.block.filters[i].a1 ∧
        u.a2 = s.block.filters[i].a2)

/-- R191, R192, R196: a biquad's step gives the five products combined left to right and shifts the
history; a distortion unit gives its shape function at its level and is left as it is. -/
def Obligations.FilterStep : Prop :=
  ∀ (P : OpenParams) (u : FilterUnit) (x : F64),
    (u.kind ≠ .distortion →
      (filterApply P u x).1 =
        fSub P (fSub P (fAdd P (fAdd P (fMul P u.b0 x) (fMul P u.b1 u.x1)) (fMul P u.b2 u.x2))
          (fMul P u.a1 u.y1)) (fMul P u.a2 u.y2) ∧
      (filterApply P u x).2 =
        { u with x1 := x, x2 := u.x1, y1 := (filterApply P u x).1, y2 := u.y1 }) ∧
    (u.kind = .distortion → filterApply P u x = (distShape P u.flevel x, u))

/-- R171, R172: `CHADDSUM` and `CHADDLINK` append a stage of their mode, or change nothing where the unit
is in the chain already, in either mode. -/
def Obligations.ChainAddAppendsOnce : Prop :=
  ∀ (s : State) (a : BitVec 8) (i : Fid), a.toNat = i.val → i.val < numFilters openParams →
    ((∀ st ∈ s.block.chain, st.fid ≠ i) →
      exec (.chaddsum a) s = .next (answered { s with block.chain :=
        s.block.chain ++ [{ mode := .sum, fid := i }] } .ok 0) ∧
      exec (.chaddlink a) s = .next (answered { s with block.chain :=
        s.block.chain ++ [{ mode := .link, fid := i }] } .ok 0)) ∧
    ((∃ st ∈ s.block.chain, st.fid = i) →
      exec (.chaddsum a) s = .next (answered s .ok 0) ∧
      exec (.chaddlink a) s = .next (answered s .ok 0))

/-- R173, R175: `CHREMOVE` deletes the stage of its unit and keeps the others in order; `CHCLEAR` empties
the chain; neither changes anything else. -/
def Obligations.ChainRemoveAndClear : Prop :=
  (∀ (s : State) (a : BitVec 8) (i : Fid), a.toNat = i.val → i.val < numFilters openParams →
    ∃ chain : List Stage,
      exec (.chremove a) s = .next (answered { s with block.chain := chain } .ok 0) ∧
      (∀ st, st ∈ chain ↔ st ∈ s.block.chain ∧ st.fid ≠ i) ∧ chain.Sublist s.block.chain ∧
      ((s.block.chain.map Stage.fid).Nodup →
        chain.length = s.block.chain.length - (if ∃ st ∈ s.block.chain, st.fid = i then 1 else 0))) ∧
  ∀ s : State, exec .chclear s = .next (answered { s with block.chain := [] } .ok 0)

/-- R174: `CHSWAP` of two units in the chain exchanges their whole pairs at their positions; where either
is absent, or both are the same, nothing changes. -/
def Obligations.ChainSwapExchangesPairs : Prop :=
  ∀ (s : State) (a b : BitVec 8) (i j : Fid), a.toNat = i.val → b.toNat = j.val →
    i.val < numFilters openParams → j.val < numFilters openParams →
    (s.block.chain.map Stage.fid).Nodup →
    ∃ chain : List Stage,
      exec (.chswap a b) s = .next (answered { s with block.chain := chain } .ok 0) ∧
      (∀ (p q : Nat) (sp sq : Stage), s.block.chain[p]? = some sp → s.block.chain[q]? = some sq →
        sp.fid = i → sq.fid = j → chain.length = s.block.chain.length ∧
        chain[p]? = some sq ∧ chain[q]? = some sp ∧
        ∀ k, k ≠ p → k ≠ q → chain[k]? = s.block.chain[k]?) ∧
      ((∀ st ∈ s.block.chain, st.fid ≠ i) ∨ (∀ st ∈ s.block.chain, st.fid ≠ j) ∨ i = j →
        chain = s.block.chain)

/-- R176: an empty chain gives its input and steps no unit; a chain of one LINK stage gives its filter of the
input, of one SUM stage `+0.0` plus that; a stage after others filters the input (SUM) or the value so far
(LINK), on the units as the stages before it left them, and adds its output to the value so far (SUM) or
puts it in its place (LINK). -/
def Obligations.ChainComposition : Prop :=
  ∀ (P : OpenParams) (x : F64) (fus : Vector FilterUnit maxFilters),
    chainProcess P [] x fus = (x, fus) ∧
    (∀ i : Fid, let out := filterApply P fus[i] x
      chainProcess P [⟨.link, i⟩] x fus = (out.1, fus.set i.val out.2) ∧
      chainProcess P [⟨.sum, i⟩] x fus = (fAdd P posZero out.1, fus.set i.val out.2)) ∧
    ∀ (chain : List Stage) (i : Fid), chain ≠ [] →
      let before := chainProcess P chain x fus
      let summed := filterApply P before.2[i] x
      let linked := filterApply P before.2[i] before.1
      chainProcess P (chain ++ [⟨.sum, i⟩]) x fus =
        (fAdd P before.1 summed.1, before.2.set i.val summed.2) ∧
      chainProcess P (chain ++ [⟨.link, i⟩]) x fus = (linked.1, before.2.set i.val linked.2)

/-- R177: an empty chain gives its input bit for bit; one LINK stage with the neutral coefficients and a
zero history gives every finite input other than `-0.0` unchanged, and `+0.0` for `-0.0`. -/
def Obligations.NeutralChainIsIdentity : Prop :=
  ∀ (P : OpenParams) (x : F64) (i : Fid) (fus : Vector FilterUnit maxFilters),
    (chainProcess P [] x fus).1 = x ∧
    (fus[i].kind ≠ .distortion → fus[i].b0 = f64One → fus[i].b1 = posZero → fus[i].b2 = posZero →
      fus[i].a1 = posZero → fus[i].a2 = posZero → fus[i].x1 = posZero → fus[i].x2 = posZero →
      fus[i].y1 = posZero → fus[i].y2 = posZero → isFinite x = true →
      (chainProcess P [⟨.link, i⟩] x fus).1 = if x = 0x8000000000000000#64 then posZero else x)

/-! ### Preset staging and load -/

/-- R201, R202, R203, R204, R205: the topology staging commands that are not refused write their part of
the staged preset and nothing else. -/
def Obligations.StagingWritesTopology : Prop :=
  ∀ (s : State) (a b : BitVec 8) (m o : Op), a.toNat = m.val → b.toNat = o.val →
    exec .pclear s = .next (answered { s with block.staged := Preset.reset } .ok 0) ∧
    (∀ n : BitVec 8, n.toNat ≤ 36 → ∃ count : BitVec 6, count.toNat = n.toNat ∧
      exec (.pnops n) s = .next (answered { s with block.staged.count := count } .ok 0)) ∧
    (∃ carriers : OpSet,
      exec (.pcarr a) s = .next (answered { s with block.staged.carriers := carriers } .ok 0) ∧
      ∀ c : Op, inSet carriers c = (inSet s.block.staged.carriers c || decide (c = m))) ∧
    (∃ src tgt : BitVec 6, src.toNat = m.val ∧ tgt.toNat = o.val ∧
      exec (.pfbk a b) s = .next (answered { s with block.staged :=
        { s.block.staged with fbSource := src, fbTarget := tgt } } .ok 0)) ∧
    ∃ mods : Vector OpSet maxOps,
      exec (.pmod a b) s = .next (answered { s with block.staged.mods := mods } .ok 0) ∧
      ∀ m' o' : Op, hasEdge mods m' o' =
        (hasEdge s.block.staged.mods m' o' || (decide (m' = m) && decide (o' = o)))

/-- R87: the `POPI` selectors and their clamp domains; 15 and above are reserved and refused with
`BAD_INDEX`. -/
def Obligations.PopiSelectorTable : Prop :=
  (List.range 15).map (fun n => (intFieldOf (BitVec.ofNat 8 n)).map fun f => (f, intDomain f)) =
    [some (.wave, (0, 255)), some (.outLevel, (0, 99)), some (.fbDepth, (-7, 7)),
     some (.levelA, (0, 99)), some (.levelD, (0, 99)), some (.levelS, (0, 99)),
     some (.levelR, (0, 99)), some (.speedA, (0, 99)), some (.speedD, (0, 99)),
     some (.speedS, (0, 99)), some (.speedR, (0, 99)), some (.bpLDepth, (0, 99)),
     some (.bpRDepth, (0, 99)), some (.bpLCurve, (0, 5)), some (.bpRCurve, (0, 5))] ∧
  ∀ (s : State) (a b : BitVec 8) (x : BitVec 64), 15 ≤ b.toNat →
    intFieldOf b = none ∧ exec (.popi a b x) s = .next (answered s .badIndex 0)

/-- `s` with one staged record written. -/
def Sys2Proof.Machine.writeStagedRecord (o : Op) (r : OpRecord) (s : State) : State :=
  { s with block.staged.records := s.block.staged.records.set o.val r }

/-- R207: a `POPI` that is not refused stores its signed operand, clamped to the field's domain, in one
field of one staged record and changes nothing else. -/
def Obligations.PopiStoresClampedInteger : Prop :=
  ∀ (s : State) (a sel : BitVec 8) (x : BitVec 64) (o : Op) (f : IntField), a.toNat = o.val →
    intFieldOf sel = some f →
    ∃ r : OpRecord,
      exec (.popi a sel x) s = .next (answered (writeStagedRecord o r s) .ok 0) ∧
      readInt r f = (if x.toInt < (intDomain f).1 then (intDomain f).1
        else if (intDomain f).2 < x.toInt then (intDomain f).2 else x.toInt) ∧
      (∀ g, g ≠ f → readInt r g = readInt s.block.staged.records[o] g) ∧
      r.ratio = s.block.staged.records[o].ratio ∧
      r.bpCenter = s.block.staged.records[o].bpCenter

/-- R208: a `POPF` that is not refused stores `RATIO` clamped to [0, 32] (selector 0) or `BP_CENTER` as
given (selector 1) in one staged record and changes nothing else. -/
def Obligations.PopfStoresReal : Prop :=
  ∀ (s : State) (a sel : BitVec 8) (x : F64) (o : Op), a.toNat = o.val → sel.toNat < 2 →
    isFinite x = true →
    ∃ r : OpRecord,
      exec (.popf a sel x) s = .next (answered (writeStagedRecord o r s) .ok 0) ∧
      (∀ g, readInt r g = readInt s.block.staged.records[o] g) ∧
      (sel = 0 → r.ratio = (if fLt x posZero then posZero
          else if fLt 0x4040000000000000#64 x then 0x4040000000000000#64 else x) ∧
        r.bpCenter = s.block.staged.records[o].bpCenter) ∧
      (sel = 1 → r.bpCenter = x ∧ r.ratio = s.block.staged.records[o].ratio)

/-- The six checks of R211 on a staged preset, in order, as conditions. -/
def Sys2Proof.Machine.loadFault (pr : Preset) : List (Code × Prop) :=
  [(.loadNops, pr.count = 0),
   (.loadNoCarrier, ∀ c : Op, inSet pr.carriers c = false),
   (.loadCarrierRange, ∃ c : Op, inSet pr.carriers c = true ∧ pr.count.toNat ≤ c.val),
   (.loadEdgeRange, ∃ m o : Op, Edge pr.mods m o ∧
     (pr.count.toNat ≤ m.val ∨ pr.count.toNat ≤ o.val)),
   (.loadFbRange, pr.count.toNat ≤ pr.fbSource.toNat ∨ pr.count.toNat ≤ pr.fbTarget.toNat),
   (.loadCycle, Cyclic pr.mods)]

/-- R210, R211: `LOADPRESET` is refused with the code of the first check of the staged preset that fails,
and then changes nothing. -/
def Obligations.LoadRefusedByFirstFailingCheck : Prop :=
  ∀ (s : State) (before after : List (Code × Prop)) (code : Code) (fault : Prop),
    loadFault s.block.staged = before ++ (code, fault) :: after → fault →
    (∀ c ∈ before, ¬ c.2) → exec .loadpreset s = .next (answered s code 0)

/-- R210, R212: where no check fails, `LOADPRESET` makes the staged preset the active one, returns every
voice to its reset state and empties the chain; the gain, the filter units and the staged preset stay. -/
def Obligations.LoadCommitsStagedPreset : Prop :=
  ∀ s : State, (∀ c ∈ loadFault s.block.staged, ¬ c.2) →
    exec .loadpreset s = .next (answered { s with block :=
      { s.block with active := s.block.staged,
                     voices := Vector.replicate numVoices VoiceState.reset,
                     chain := [] } } .ok 0)

/-! ### Arithmetic -/

/-- The exact value of a finite magnitude, in units of `2^-1074` (the layout of R64): a subnormal's fraction,
or the significand with its hidden bit, shifted by the exponent. -/
def Sys2Proof.Machine.magnitudeUnits (m : Nat) : Nat :=
  if m < 2 ^ 52 then m else (2 ^ 52 + m % 2 ^ 52) * 2 ^ (m / 2 ^ 52 - 1)

/-- `x` has the sign `neg` and the magnitude to which `num / den` units of `2^-1074` round. -/
def Sys2Proof.Machine.RoundsTo (x : F64) (neg : Bool) (num den : Nat) : Prop :=
  signOf x = neg ∧ magnitudeOf x = roundMagnitude num den

/-- `x` is the infinity of the sign `neg`. -/
def Sys2Proof.Machine.IsInfinity (x : F64) (neg : Bool) : Prop := signOf x = neg ∧ isInf x = true

/-- R14: rounding is to nearest: no finite magnitude lies nearer to the exact quotient than the rounded
one, one that lies as near is met only with the rounded one even, and the result is infinite exactly
from half a place past the largest finite magnitude on. -/
def Sys2Proof.Machine.RoundsToNearestEven : Prop :=
  ∀ num den : Nat, 0 < den →
    (roundMagnitude num den = infMagnitude ↔ den * ((2 ^ 54 - 1) * 2 ^ 2044) ≤ num) ∧
    (roundMagnitude num den < infMagnitude → ∀ m < infMagnitude, m ≠ roundMagnitude num den →
      let near := ((magnitudeUnits (roundMagnitude num den) * den : Nat) - (num : Int)).natAbs
      let far := ((magnitudeUnits m * den : Nat) - (num : Int)).natAbs
      near < far ∨ (near = far ∧ roundMagnitude num den % 2 = 0))

/-- R14: of finite operands the four operations give the exact result rounded once: the sum and the
difference with the sign of the exact result, the product and the quotient with the sign that differs when
the operands' signs do; an exact zero sum is `+0.0` but for two operands that both count as negative. -/
def Sys2Proof.Machine.FiniteOperandsRoundOnce (P : OpenParams) (a b : F64) : Prop :=
  let sum := signedUnitsOf a + signedUnitsOf b
  let difference := signedUnitsOf a - signedUnitsOf b
  let differ := signOf a != signOf b
  RoundsTo (fAdd P a b) (if sum = 0 then signOf a && signOf b else decide (sum < 0)) sum.natAbs 1 ∧
  RoundsTo (fSub P a b) (if difference = 0 then signOf a && !signOf b else decide (difference < 0))
    difference.natAbs 1 ∧
  RoundsTo (fMul P a b) differ (unitsOf a * unitsOf b) (2 ^ 1074) ∧
  (isZero b = false → RoundsTo (fDiv P a b) differ (unitsOf a * 2 ^ 1074) (unitsOf b)) ∧
  (isZero b = true → isZero a = false → IsInfinity (fDiv P a b) differ) ∧
  (isZero b = true → isZero a = true → isNaN (fDiv P a b) = true)

/-- R14: of two infinities, and of an infinity and a finite operand, the four operations give the infinity,
the zero or the NaN that IEEE 754 gives. -/
def Sys2Proof.Machine.InfiniteOperands (P : OpenParams) (a b : F64) : Prop :=
  let differ := signOf a != signOf b
  (isInf a = true → isInf b = true →
    (if differ then isNaN (fAdd P a b) = true ∧ fSub P a b = a
      else fAdd P a b = a ∧ isNaN (fSub P a b) = true) ∧
    IsInfinity (fMul P a b) differ ∧ isNaN (fDiv P a b) = true) ∧
  (isInf a = true → isFinite b = true → fAdd P a b = a ∧ fSub P a b = a ∧
    (if isZero b then isNaN (fMul P a b) = true else IsInfinity (fMul P a b) differ) ∧
    IsInfinity (fDiv P a b) differ) ∧
  (isFinite a = true → isInf b = true → fAdd P a b = b ∧ IsInfinity (fSub P a b) (!signOf b) ∧
    (if isZero a then isNaN (fMul P a b) = true else IsInfinity (fMul P a b) differ) ∧
    RoundsTo (fDiv P a b) differ 0 1)

/-- R14: each of the four operations gives the exact result of its finite operands rounded once, to nearest
with ties to even and to an infinity past the largest finite magnitude; a zero, an infinity and a NaN where
IEEE 754 gives them: an operand that is a NaN, the sum of unlike infinities and the difference of like
ones, zero times an infinity, zero over zero and infinity over infinity give a NaN. -/
def Obligations.ArithmeticRoundsExactResult : Prop :=
  RoundsToNearestEven ∧
  (∀ a : F64, isFinite a = true → unitsOf a = magnitudeUnits (magnitudeOf a)) ∧
  ∀ (P : OpenParams) (a b : F64),
    (isFinite a = true → isFinite b = true → FiniteOperandsRoundOnce P a b) ∧
    InfiniteOperands P a b ∧
    (isNaN a = true ∨ isNaN b = true → isNaN (fAdd P a b) = true ∧ isNaN (fSub P a b) = true ∧
      isNaN (fMul P a b) = true ∧ isNaN (fDiv P a b) = true)
end

