-- ==== Sys2Proof/Laws/Chain.lean ====
section
/-! SUPPORT. What the operations on the chain and on a filter unit can do (R170 to R176, R186 to R192). -/

namespace Sys2Proof.Machine

open Sys2Proof

theorem inChain_iff (chain : List Stage) (i : Fid) :
    inChain chain i = true ↔ ∃ st ∈ chain, st.fid = i := by
  unfold inChain; simp

theorem mem_chainRemove (i : Fid) (chain : List Stage) (st : Stage) :
    st ∈ chainRemove i chain ↔ st ∈ chain ∧ st.fid ≠ i := by
  unfold chainRemove; simp

/-- An exchange keeps the stages: the chain after it is a permutation of the chain before. -/
theorem exchangeAt_perm (p q : Nat) (chain : List Stage) : (exchangeAt p q chain).Perm chain := by
  unfold exchangeAt
  split
  · rename_i sp sq hp hq
    obtain ⟨lp, ep⟩ := List.getElem?_eq_some_iff.mp hp
    obtain ⟨lq, eq⟩ := List.getElem?_eq_some_iff.mp hq
    subst ep; subst eq
    exact List.set_set_perm lp lq
  · exact List.Perm.refl _

theorem chainExchange_perm (i j : Fid) (chain : List Stage) :
    (chainExchange i j chain).Perm chain := by
  unfold chainExchange
  split
  · exact exchangeAt_perm _ _ _
  · exact List.Perm.refl _

/-- The coefficient update writes coefficients alone. -/
theorem coefUpdate_frame (P : OpenParams) (u : FilterUnit) :
    coefUpdate P u = { u with b0 := (coefUpdate P u).b0, b1 := (coefUpdate P u).b1,
                              b2 := (coefUpdate P u).b2, a1 := (coefUpdate P u).a1,
                              a2 := (coefUpdate P u).a2 } := by
  obtain ⟨kind⟩ := u
  cases kind <;> rfl

/-- A filter step writes the history alone. -/
theorem filterApply_frame (P : OpenParams) (u : FilterUnit) (x : F64) :
    (filterApply P u x).2 =
      { u with x1 := (filterApply P u x).2.x1, x2 := (filterApply P u x).2.x2,
               y1 := (filterApply P u x).2.y1, y2 := (filterApply P u x).2.y2 } := by
  obtain ⟨kind⟩ := u
  cases kind <;> rfl

/-- A stage's unit after its step is the unit after a filter step on some input. -/
theorem stageApply_unit (P : OpenParams) (x acc : F64) (head : Bool) (mode : ChainMode)
    (u : FilterUnit) : ∃ y, (stageApply P x acc head mode u).2 = (filterApply P u y).2 := by
  cases mode
  · exact ⟨x, rfl⟩
  · exact ⟨_, rfl⟩

end Sys2Proof.Machine
end

