-- ==== Sys2Proof/Laws/Encoding.lean ====
section
/-! SUPPORT. The fields of an encoded command word read back (R81). -/

namespace Sys2Proof

/-- The fields of `commandWord`, bit by bit from the top. -/
theorem getLsbD_commandWord (op a b : BitVec 8) (d : BitVec 64) (i : Nat) :
    (commandWord op a b d).getLsbD i =
      if i < 64 then d.getLsbD i
      else if i < 104 then false
      else if i < 112 then b.getLsbD (i - 104)
      else if i < 120 then a.getLsbD (i - 112)
      else op.getLsbD (i - 120) := by
  show (op ++ a ++ b ++ (0 : BitVec 40) ++ d).getLsbD i = _
  rw [BitVec.getLsbD_append, BitVec.getLsbD_append, BitVec.getLsbD_append, BitVec.getLsbD_append]
  have e1 : i - 64 - 40 = i - 104 := by omega
  have e2 : i - 104 - 8 = i - 112 := by omega
  have e3 : i - 112 - 8 = i - 120 := by omega
  rw [e1, e2, e3]
  by_cases c1 : i < 64
  · simp [c1]
  · by_cases c2 : i < 104
    · have : i - 64 < 40 := by omega
      simp [c1, c2, this]
    · by_cases c3 : i < 112
      · have : ¬ i - 64 < 40 := by omega
        have : i - 104 < 8 := by omega
        simp [*]
      · by_cases c4 : i < 120
        · have : ¬ i - 64 < 40 := by omega
          have : ¬ i - 104 < 8 := by omega
          have : i - 112 < 8 := by omega
          simp [*]
        · have : ¬ i - 64 < 40 := by omega
          have : ¬ i - 104 < 8 := by omega
          have : ¬ i - 112 < 8 := by omega
          simp [*]

theorem fieldOp_commandWord (op a b : BitVec 8) (d : BitVec 64) :
    fieldOp (commandWord op a b d) = op := by
  apply BitVec.eq_of_getLsbD_eq
  intro i hi
  have c1 : ¬ 120 + i < 64 := by omega
  have c2 : ¬ 120 + i < 104 := by omega
  have c3 : ¬ 120 + i < 112 := by omega
  simp [fieldOp, getLsbD_commandWord, hi, c1, c2, c3]

theorem fieldA_commandWord (op a b : BitVec 8) (d : BitVec 64) :
    fieldA (commandWord op a b d) = a := by
  apply BitVec.eq_of_getLsbD_eq
  intro i hi
  have c1 : ¬ 112 + i < 64 := by omega
  have c2 : ¬ 112 + i < 104 := by omega
  have c3 : 112 + i < 120 := by omega
  simp [fieldA, getLsbD_commandWord, hi, c1, c2, c3]

theorem fieldB_commandWord (op a b : BitVec 8) (d : BitVec 64) :
    fieldB (commandWord op a b d) = b := by
  apply BitVec.eq_of_getLsbD_eq
  intro i hi
  have c1 : ¬ 104 + i < 64 := by omega
  have c2 : 104 + i < 112 := by omega
  simp [fieldB, getLsbD_commandWord, hi, c1, c2]

theorem fieldRsv_commandWord (op a b : BitVec 8) (d : BitVec 64) :
    fieldRsv (commandWord op a b d) = 0 := by
  apply BitVec.eq_of_getLsbD_eq
  intro i hi
  have c1 : ¬ 64 + i < 64 := by omega
  have c2 : 64 + i < 104 := by omega
  simp [fieldRsv, getLsbD_commandWord, c2]

theorem fieldD_commandWord (op a b : BitVec 8) (d : BitVec 64) :
    fieldD (commandWord op a b d) = d := by
  apply BitVec.eq_of_getLsbD_eq
  intro i hi
  simp [fieldD, getLsbD_commandWord, hi]

/-- A word is made up of its fields: with `RSV` zero it is the word of the other four. -/
theorem commandWord_fields (w : CommandWord) (rsv : fieldRsv w = 0) :
    commandWord (fieldOp w) (fieldA w) (fieldB w) (fieldD w) = w := by
  apply BitVec.eq_of_getLsbD_eq
  intro i hi
  rw [getLsbD_commandWord]
  have zero : ∀ j < 40, w.getLsbD (64 + j) = false := by
    intro j hj
    have := congrArg (fun x => x.getLsbD j) rsv
    simpa [fieldRsv, hj] using this
  split
  · rename_i c; simp [fieldD, c]
  · split
    · have := zero (i - 64) (by omega)
      rw [← this]; congr 1; omega
    · split
      · have h : i - 104 < 8 := by omega
        have e : 104 + (i - 104) = i := by omega
        simp [fieldB, h, e]
      · split
        · have h : i - 112 < 8 := by omega
          have e : 112 + (i - 112) = i := by omega
          simp [fieldA, h, e]
        · have h : i - 120 < 8 := by omega
          have e : 120 + (i - 120) = i := by omega
          simp [fieldOp, h, e]

end Sys2Proof
end

