-- ==== Sys2Proof/Laws/Envelope.lean ====
section
/-! SUPPORT. Everything one `EnvStep` can do (R104 to R106). -/

namespace Sys2Proof.Machine

open Sys2Proof

/-- `EnvStep`: a resting slot is kept, a timed slot advances, and at its last sample it enters the next
segment. -/
theorem envStep_cases (P : OpenParams) (r : OpRecord) (e : EnvSlot) :
    (isTimed e.state = false ∧ envStep P r e = e) ∨
    (isTimed e.state = true ∧ e.pos + 1 < e.size ∧ envStep P r e = envAdvance P e) ∨
    (isTimed e.state = true ∧ e.size ≤ e.pos + 1 ∧ envStep P r e = envNext P r (envAdvance P e)) := by
  unfold envStep
  cases timed : isTimed e.state
  · exact .inl ⟨rfl, rfl⟩
  · by_cases last : e.size ≤ e.pos + 1
    · exact .inr (.inr ⟨rfl, last, by simp [last]⟩)
    · exact .inr (.inl ⟨rfl, Nat.not_le.mp last, by simp [last]⟩)

/-- `EnvNext` by the state it completes. -/
theorem envNext_cases (P : OpenParams) (r : OpRecord) (e : EnvSlot) :
    (e.state = .attack ∧ envNext P r e = envArm P r .decay e) ∨
    (e.state = .decay ∧ envNext P r e = envArm P r .sustain e) ∨
    (e.state = .sustain ∧ envNext P r e = envHold e) ∨
    (e.state = .release ∧ envNext P r e = envArm P r .preIdle e) ∨
    (e.state = .preIdle ∧ envNext P r e = EnvSlot.reset) ∨
    (isTimed e.state = false ∧ envNext P r e = e) := by
  unfold envNext
  cases e.state <;> simp [isTimed]

/-- `EnvRelease` arms RELEASE or keeps the slot. -/
theorem envRelease_cases (P : OpenParams) (r : OpRecord) (e : EnvSlot) :
    (isReleasable e.state = true ∧ envRelease P r e = envArm P r .release e) ∨
    (isReleasable e.state = false ∧ envRelease P r e = e) := by
  unfold envRelease
  cases isReleasable e.state <;> simp

/-- A timed segment's length, whatever the state, is the length of a configured segment, of PRE_IDLE, or
1. -/
theorem envLength_cases (P : OpenParams) (r : OpRecord) (st : EnvState) :
    (∃ i, envLength P r st = segSamples P i) ∨ envLength P r st = preIdleSamples P ∨
      envLength P r st = 1 := by
  cases st
  · exact .inl ⟨_, rfl⟩
  · exact .inl ⟨_, rfl⟩
  · exact .inl ⟨_, rfl⟩
  · exact .inr (.inr rfl)
  · exact .inl ⟨_, rfl⟩
  · exact .inr (.inl rfl)
  · exact .inr (.inr rfl)

end Sys2Proof.Machine
end

