-- ==== Sys2Proof/Laws/Float.lean ====
section
/-! SUPPORT. What the comparison, the clamp, the free NaN and the bounded parameters can answer (R7, R8,
R14, R15, R102, R135). -/

namespace Sys2Proof.Machine

open Sys2Proof

theorem fLe_iff (a b : F64) :
    fLe a b = true ↔ isNaN a = false ∧ isNaN b = false ∧ orderKey a ≤ orderKey b := by
  unfold fLe fLt fEq
  cases isNaN a <;> cases isNaN b <;> (simp; try omega)

theorem fLt_iff (a b : F64) :
    fLt a b = true ↔ isNaN a = false ∧ isNaN b = false ∧ orderKey a < orderKey b := by
  unfold fLt
  cases isNaN a <;> cases isNaN b <;> simp

theorem isNaN_of_isFinite (x : F64) (fin : isFinite x = true) : isNaN x = false := by
  unfold isFinite at fin
  unfold isNaN
  simp_all

/-- The clamp of a value that is not a NaN lies between its bounds. -/
theorem fclamp_bounds (x lo hi : F64) (real : isNaN x = false) (order : fLe lo hi = true) :
    fLe lo (fclamp x lo hi) = true ∧ fLe (fclamp x lo hi) hi = true := by
  have o := (fLe_iff lo hi).mp order
  unfold fclamp
  split
  · exact ⟨(fLe_iff _ _).mpr ⟨o.1, o.1, le_refl _⟩, order⟩
  · rename_i below
    split
    · exact ⟨order, (fLe_iff _ _).mpr ⟨o.2.1, o.2.1, le_refl _⟩⟩
    · rename_i above
      have b : ¬ orderKey x < orderKey lo := fun h => below ((fLt_iff _ _).mpr ⟨real, o.1, h⟩)
      have a : ¬ orderKey hi < orderKey x := fun h => above ((fLt_iff _ _).mpr ⟨o.2.1, real, h⟩)
      exact ⟨(fLe_iff _ _).mpr ⟨o.1, real, by omega⟩, (fLe_iff _ _).mpr ⟨real, o.2.1, by omega⟩⟩

/-- The clamp passes a NaN on. -/
theorem fclamp_of_isNaN (x lo hi : F64) (nan : isNaN x = true) : fclamp x lo hi = x := by
  unfold fclamp fLt; simp [nan]

/-- The free NaN is a NaN (U3). -/
theorem isNaN_freeNaN (P : OpenParams) (op : FloatOp) (a b : F64) :
    isNaN (freeNaN P op a b) = true := by
  unfold freeNaN
  split
  · assumption
  · decide

/-- `FS` is at least 5, and `FS div 5` fits 32 bits (R7, R13). -/
theorem sampleRate_bounds (P : OpenParams) : 5 ≤ sampleRate P ∧ sampleRate P / 5 < 2 ^ 32 := by
  unfold sampleRate
  split
  · assumption
  · decide

/-- `0 < Q_MIN <= Q_MAX`, both finite (R7). -/
theorem qBounds (P : OpenParams) :
    isFinite (qMin P) = true ∧ isFinite (qMax P) = true ∧ fLt posZero (qMin P) = true ∧
      fLe (qMin P) (qMax P) = true := by
  unfold qMin qMax
  split
  · rename_i h
    simp only [qBoundsLegal, Bool.and_eq_true] at h
    exact ⟨h.1.1.1, h.1.1.2, h.1.2, h.2⟩
  · decide

/-- A pre-idle segment has at least one sample (R102). -/
theorem preIdleSamples_bounds (P : OpenParams) :
    1 ≤ preIdleSamples P ∧ preIdleSamples P < 2 ^ 32 := by
  have b := sampleRate_bounds P
  unfold preIdleSamples
  omega

/-- A configured segment has at least one sample, and its length fits 32 bits, provided the product of a
zero entry does (it is `0.0 * FS`). -/
theorem segSamples_pos (P : OpenParams) (i : Nat) : 1 ≤ segSamples P i := by
  unfold segSamples; omega

theorem segSamples_lt (P : OpenParams) (i : Nat)
    (zero : floorNat (segProduct P posZero) < 2 ^ 32) : segSamples P i < 2 ^ 32 := by
  have entry : floorNat (segProduct P (rateSec P i)) < 2 ^ 32 := by
    unfold rateSec
    split
    · rename_i h
      have legal := h.2
      simp only [rateTableLegal, Bool.and_eq_true, List.all_eq_true, List.mem_range] at legal
      have := legal.1 i h.1
      simp only [rateEntryLegal, Bool.and_eq_true, decide_eq_true_eq] at this
      exact this.2
    · exact zero
  unfold segSamples
  omega

/-- A noise value lies in [-1, 1] (R135). -/
theorem noiseValue_bounds (x : F64) :
    fLe f64MinusOne (noiseValue x) = true ∧ fLe (noiseValue x) f64One = true := by
  unfold noiseValue
  split
  · rename_i h; simpa [Bool.and_eq_true] using h
  · decide

end Sys2Proof.Machine
end

