-- ==== Sys2Proof/Laws/Operands.lean ====
section
/-! SUPPORT. What each operand form of `Sys2Proof/Machine/Operands.lean` can answer (R13, R87, R223). -/

namespace Sys2Proof.Machine

open Sys2Proof

/-! ### Indices -/

theorem voiceOf_eq_some (a : BitVec 8) (v : Voice) : voiceOf a = some v ↔ a.toNat = v.val := by
  unfold voiceOf
  split
  · rename_i h
    exact ⟨fun e => by cases e; rfl, fun e => congrArg some (Fin.ext e)⟩
  · rename_i h
    exact ⟨fun e => (by cases e), fun e => absurd (e ▸ v.isLt) h⟩

theorem voiceOf_eq_none (a : BitVec 8) : voiceOf a = none ↔ numVoices ≤ a.toNat := by
  unfold voiceOf
  split
  · rename_i h; exact ⟨fun e => (by cases e), fun e => absurd h (Nat.not_lt.mpr e)⟩
  · rename_i h; exact ⟨fun _ => Nat.not_lt.mp h, fun _ => rfl⟩

theorem opOf_eq_some (a : BitVec 8) (o : Op) : opOf a = some o ↔ a.toNat = o.val := by
  unfold opOf
  split
  · rename_i h
    exact ⟨fun e => by cases e; rfl, fun e => congrArg some (Fin.ext e)⟩
  · rename_i h
    exact ⟨fun e => (by cases e), fun e => absurd (e ▸ o.isLt) h⟩

theorem opOf_eq_none (a : BitVec 8) : opOf a = none ↔ maxOps ≤ a.toNat := by
  unfold opOf
  split
  · rename_i h; exact ⟨fun e => (by cases e), fun e => absurd h (Nat.not_lt.mpr e)⟩
  · rename_i h; exact ⟨fun _ => Nat.not_lt.mp h, fun _ => rfl⟩

/-- `NUM_FILTERS` is 1 to 255 (R7). -/
theorem numFilters_bounds (P : OpenParams) : 1 ≤ numFilters P ∧ numFilters P ≤ maxFilters := by
  unfold numFilters
  split
  · assumption
  · decide

theorem fidOf_eq_some (P : OpenParams) (a : BitVec 8) (i : Fid) :
    fidOf P a = some i ↔ a.toNat = i.val ∧ i.val < numFilters P := by
  unfold fidOf
  split
  · rename_i h
    exact ⟨fun e => by cases e; exact ⟨rfl, h.1⟩, fun e => congrArg some (Fin.ext e.1)⟩
  · rename_i h
    exact ⟨fun e => (by cases e), fun e => absurd ⟨e.1 ▸ e.2, e.1 ▸ i.isLt⟩ h⟩

theorem fidOf_eq_none (P : OpenParams) (a : BitVec 8) :
    fidOf P a = none ↔ numFilters P ≤ a.toNat := by
  have b := (numFilters_bounds P).2
  unfold fidOf
  split
  · rename_i h; exact ⟨fun e => (by cases e), fun e => absurd h.1 (Nat.not_lt.mpr e)⟩
  · rename_i h; exact ⟨fun _ => by omega, fun _ => rfl⟩

theorem countOf_eq_some (a : BitVec 8) (n : BitVec 6) :
    countOf a = some n ↔ a.toNat = n.toNat ∧ a.toNat ≤ maxOps := by
  unfold countOf
  split
  · rename_i h
    have small : a.toNat < 2 ^ 6 := Nat.lt_of_le_of_lt h (by decide)
    constructor
    · intro e
      cases e
      exact ⟨by rw [BitVec.toNat_ofNat, Nat.mod_eq_of_lt small], h⟩
    · intro e
      rw [e.1, BitVec.ofNat_toNat, BitVec.setWidth_eq]
  · rename_i h; exact ⟨fun e => (by cases e), fun e => absurd e.2 h⟩

theorem countOf_eq_none (a : BitVec 8) : countOf a = none ↔ maxOps < a.toNat := by
  unfold countOf
  split
  · rename_i h; exact ⟨fun e => (by cases e), fun e => absurd h (Nat.not_le.mpr e)⟩
  · rename_i h; exact ⟨fun _ => Nat.not_le.mp h, fun _ => rfl⟩

/-! ### Reserved selectors -/

theorem intFieldOf_eq_none (b : BitVec 8) : intFieldOf b = none ↔ 15 ≤ b.toNat := by
  revert b; decide

theorem realFieldOf_eq_none (b : BitVec 8) : realFieldOf b = none ↔ 2 ≤ b.toNat := by
  revert b; decide

theorem kindOf_eq_none (b : BitVec 8) : kindOf b = none ↔ 4 ≤ b.toNat := by
  revert b; decide

theorem filterParamOf_eq_none (b : BitVec 8) : filterParamOf b = none ↔ 4 ≤ b.toNat := by
  revert b; decide

/-! ### The integer clamp -/

theorem iclamp_bounds (x lo hi : Int) (order : lo ≤ hi) :
    lo ≤ iclamp x lo hi ∧ iclamp x lo hi ≤ hi := by
  unfold iclamp; split <;> [skip; split] <;> omega

theorem iclamp_of_bounds (x lo hi : Int) (low : lo ≤ x) (high : x ≤ hi) : iclamp x lo hi = x := by
  unfold iclamp; split <;> [skip; split] <;> omega

/-- The domain of a field fits the field's width. -/
theorem readInt_storeInt (r : OpRecord) (f : IntField) (x : Int) (low : (intDomain f).1 ≤ x)
    (high : x ≤ (intDomain f).2) : readInt (storeInt r f x) f = x := by
  cases f <;> simp only [intDomain] at low high <;>
    simp only [readInt, storeInt, BitVec.toNat_ofInt, BitVec.toInt_ofInt, Int.bmod] <;> omega

/-- Writing one integer field keeps the others. -/
theorem readInt_storeInt_of_ne (r : OpRecord) (f g : IntField) (x : Int) (ne : g ≠ f) :
    readInt (storeInt r f x) g = readInt r g := by
  cases f <;> cases g <;> first | rfl | exact absurd rfl ne

end Sys2Proof.Machine
end

