-- ==== Sys2Proof/Laws/PerInstr.lean ====
section
/-! SUPPORT. What is shown of every command one by one: the encoding leaves the reserved field zero, so the
first check of the decoding (R85) passes on every encoded command. -/

namespace Sys2Proof.Laws

/-- R81: `RSV` of the encoding of a command is zero. -/
def EncodedReservedZero.Statement (i : Instr) : Prop := fieldRsv (encode i) = 0

theorem EncodedReservedZero.tick :
    EncodedReservedZero.Statement (.tick) := fieldRsv_commandWord _ _ _ _

theorem EncodedReservedZero.keyon (v : BitVec 8) (f : BitVec 64) :
    EncodedReservedZero.Statement (.keyon v f) := fieldRsv_commandWord _ _ _ _

theorem EncodedReservedZero.keyoff (v : BitVec 8) :
    EncodedReservedZero.Statement (.keyoff v) := fieldRsv_commandWord _ _ _ _

theorem EncodedReservedZero.alloff :
    EncodedReservedZero.Statement (.alloff) := fieldRsv_commandWord _ _ _ _

theorem EncodedReservedZero.setgain (g : BitVec 64) :
    EncodedReservedZero.Statement (.setgain g) := fieldRsv_commandWord _ _ _ _

theorem EncodedReservedZero.envrd (v : BitVec 8) (o : BitVec 8) :
    EncodedReservedZero.Statement (.envrd v o) := fieldRsv_commandWord _ _ _ _

theorem EncodedReservedZero.envst (v : BitVec 8) (o : BitVec 8) :
    EncodedReservedZero.Statement (.envst v o) := fieldRsv_commandWord _ _ _ _

theorem EncodedReservedZero.vact (v : BitVec 8) :
    EncodedReservedZero.Statement (.vact v) := fieldRsv_commandWord _ _ _ _

theorem EncodedReservedZero.fcfg (i : BitVec 8) (k : BitVec 8) :
    EncodedReservedZero.Statement (.fcfg i k) := fieldRsv_commandWord _ _ _ _

theorem EncodedReservedZero.fparam (i : BitVec 8) (sel : BitVec 8) (x : BitVec 64) :
    EncodedReservedZero.Statement (.fparam i sel x) := fieldRsv_commandWord _ _ _ _

theorem EncodedReservedZero.chaddsum (i : BitVec 8) :
    EncodedReservedZero.Statement (.chaddsum i) := fieldRsv_commandWord _ _ _ _

theorem EncodedReservedZero.chaddlink (i : BitVec 8) :
    EncodedReservedZero.Statement (.chaddlink i) := fieldRsv_commandWord _ _ _ _

theorem EncodedReservedZero.chremove (i : BitVec 8) :
    EncodedReservedZero.Statement (.chremove i) := fieldRsv_commandWord _ _ _ _

theorem EncodedReservedZero.chswap (i : BitVec 8) (j : BitVec 8) :
    EncodedReservedZero.Statement (.chswap i j) := fieldRsv_commandWord _ _ _ _

theorem EncodedReservedZero.chclear :
    EncodedReservedZero.Statement (.chclear) := fieldRsv_commandWord _ _ _ _

theorem EncodedReservedZero.pclear :
    EncodedReservedZero.Statement (.pclear) := fieldRsv_commandWord _ _ _ _

theorem EncodedReservedZero.pnops (n : BitVec 8) :
    EncodedReservedZero.Statement (.pnops n) := fieldRsv_commandWord _ _ _ _

theorem EncodedReservedZero.pcarr (o : BitVec 8) :
    EncodedReservedZero.Statement (.pcarr o) := fieldRsv_commandWord _ _ _ _

theorem EncodedReservedZero.pfbk (src : BitVec 8) (tgt : BitVec 8) :
    EncodedReservedZero.Statement (.pfbk src tgt) := fieldRsv_commandWord _ _ _ _

theorem EncodedReservedZero.pmod (m : BitVec 8) (o : BitVec 8) :
    EncodedReservedZero.Statement (.pmod m o) := fieldRsv_commandWord _ _ _ _

theorem EncodedReservedZero.popi (o : BitVec 8) (sel : BitVec 8) (x : BitVec 64) :
    EncodedReservedZero.Statement (.popi o sel x) := fieldRsv_commandWord _ _ _ _

theorem EncodedReservedZero.popf (o : BitVec 8) (sel : BitVec 8) (x : BitVec 64) :
    EncodedReservedZero.Statement (.popf o sel x) := fieldRsv_commandWord _ _ _ _

theorem EncodedReservedZero.loadpreset :
    EncodedReservedZero.Statement (.loadpreset) := fieldRsv_commandWord _ _ _ _

end Sys2Proof.Laws
end

