-- ==== Sys2Proof/Laws/State.lean ====
section
/-! SUPPORT. One lemma per field per update of the state, each true by unfolding the update once, so that no
later proof unfolds a record update. -/

namespace Sys2Proof.Machine

/-! ### `respond` -/

@[simp] theorem respond_block (code : Code) (data : BitVec 64) (s : State) :
    (respond code data s).block = s.block := rfl

@[simp] theorem respond_inbox (code : Code) (data : BitVec 64) (s : State) :
    (respond code data s).inbox = s.inbox := rfl

@[simp] theorem respond_outbox (code : Code) (data : BitVec 64) (s : State) :
    (respond code data s).outbox = s.outbox ++ [responseWord code data] := rfl

@[simp] theorem respond_noise (code : Code) (data : BitVec 64) (s : State) :
    (respond code data s).noise = s.noise := rfl

/-! ### `respondOk` -/

@[simp] theorem respondOk_block (s : State) :
    (respondOk s).block = s.block := rfl

@[simp] theorem respondOk_inbox (s : State) :
    (respondOk s).inbox = s.inbox := rfl

@[simp] theorem respondOk_outbox (s : State) :
    (respondOk s).outbox = s.outbox ++ [responseWord .ok 0] := rfl

@[simp] theorem respondOk_noise (s : State) :
    (respondOk s).noise = s.noise := rfl

/-! ### `refuse` -/

@[simp] theorem refuse_block (code : Code) (s : State) :
    (refuse code s).block = s.block := rfl

@[simp] theorem refuse_inbox (code : Code) (s : State) :
    (refuse code s).inbox = s.inbox := rfl

@[simp] theorem refuse_outbox (code : Code) (s : State) :
    (refuse code s).outbox = s.outbox ++ [responseWord code 0] := rfl

@[simp] theorem refuse_noise (code : Code) (s : State) :
    (refuse code s).noise = s.noise := rfl

/-! ### `withCommand` -/

@[simp] theorem withCommand_block (s : State) (w : CommandWord) :
    (withCommand s w).block = s.block := rfl

@[simp] theorem withCommand_inbox (s : State) (w : CommandWord) :
    (withCommand s w).inbox = w :: s.inbox := rfl

@[simp] theorem withCommand_outbox (s : State) (w : CommandWord) :
    (withCommand s w).outbox = s.outbox := rfl

@[simp] theorem withCommand_noise (s : State) (w : CommandWord) :
    (withCommand s w).noise = s.noise := rfl

/-! ### `withNoise` and `resetBlock` -/

@[simp] theorem withNoise_block (s : State) (values : List F64) :
    (withNoise s values).block = s.block := rfl

@[simp] theorem withNoise_inbox (s : State) (values : List F64) :
    (withNoise s values).inbox = s.inbox := rfl

@[simp] theorem withNoise_outbox (s : State) (values : List F64) :
    (withNoise s values).outbox = s.outbox := rfl

@[simp] theorem withNoise_noise (s : State) (values : List F64) :
    (withNoise s values).noise = { s.noise with waiting := s.noise.waiting ++ values } := rfl

@[simp] theorem resetBlock_block (P : OpenParams) (s : State) :
    (resetBlock P s).block = Block.reset P := rfl

@[simp] theorem resetBlock_inbox (P : OpenParams) (s : State) :
    (resetBlock P s).inbox = s.inbox := rfl

@[simp] theorem resetBlock_outbox (P : OpenParams) (s : State) :
    (resetBlock P s).outbox = s.outbox := rfl

@[simp] theorem resetBlock_noise (P : OpenParams) (s : State) :
    (resetBlock P s).noise = s.noise := rfl

/-! ### `setVoice` -/

@[simp] theorem setVoice_active (v : Voice) (vs : VoiceState) (s : State) :
    (setVoice v vs s).block.active = s.block.active := rfl

@[simp] theorem setVoice_staged (v : Voice) (vs : VoiceState) (s : State) :
    (setVoice v vs s).block.staged = s.block.staged := rfl

@[simp] theorem setVoice_voices (v : Voice) (vs : VoiceState) (s : State) :
    (setVoice v vs s).block.voices = s.block.voices.set v.val vs := rfl

@[simp] theorem setVoice_gain (v : Voice) (vs : VoiceState) (s : State) :
    (setVoice v vs s).block.gain = s.block.gain := rfl

@[simp] theorem setVoice_filters (v : Voice) (vs : VoiceState) (s : State) :
    (setVoice v vs s).block.filters = s.block.filters := rfl

@[simp] theorem setVoice_chain (v : Voice) (vs : VoiceState) (s : State) :
    (setVoice v vs s).block.chain = s.block.chain := rfl

@[simp] theorem setVoice_inbox (v : Voice) (vs : VoiceState) (s : State) :
    (setVoice v vs s).inbox = s.inbox := rfl

@[simp] theorem setVoice_outbox (v : Voice) (vs : VoiceState) (s : State) :
    (setVoice v vs s).outbox = s.outbox := rfl

@[simp] theorem setVoice_noise (v : Voice) (vs : VoiceState) (s : State) :
    (setVoice v vs s).noise = s.noise := rfl

/-! ### `setVoices` -/

@[simp] theorem setVoices_active (voices : Vector VoiceState numVoices) (s : State) :
    (setVoices voices s).block.active = s.block.active := rfl

@[simp] theorem setVoices_staged (voices : Vector VoiceState numVoices) (s : State) :
    (setVoices voices s).block.staged = s.block.staged := rfl

@[simp] theorem setVoices_voices (voices : Vector VoiceState numVoices) (s : State) :
    (setVoices voices s).block.voices = voices := rfl

@[simp] theorem setVoices_gain (voices : Vector VoiceState numVoices) (s : State) :
    (setVoices voices s).block.gain = s.block.gain := rfl

@[simp] theorem setVoices_filters (voices : Vector VoiceState numVoices) (s : State) :
    (setVoices voices s).block.filters = s.block.filters := rfl

@[simp] theorem setVoices_chain (voices : Vector VoiceState numVoices) (s : State) :
    (setVoices voices s).block.chain = s.block.chain := rfl

@[simp] theorem setVoices_inbox (voices : Vector VoiceState numVoices) (s : State) :
    (setVoices voices s).inbox = s.inbox := rfl

@[simp] theorem setVoices_outbox (voices : Vector VoiceState numVoices) (s : State) :
    (setVoices voices s).outbox = s.outbox := rfl

@[simp] theorem setVoices_noise (voices : Vector VoiceState numVoices) (s : State) :
    (setVoices voices s).noise = s.noise := rfl

/-! ### `setFilter` -/

@[simp] theorem setFilter_active (i : Fid) (u : FilterUnit) (s : State) :
    (setFilter i u s).block.active = s.block.active := rfl

@[simp] theorem setFilter_staged (i : Fid) (u : FilterUnit) (s : State) :
    (setFilter i u s).block.staged = s.block.staged := rfl

@[simp] theorem setFilter_voices (i : Fid) (u : FilterUnit) (s : State) :
    (setFilter i u s).block.voices = s.block.voices := rfl

@[simp] theorem setFilter_gain (i : Fid) (u : FilterUnit) (s : State) :
    (setFilter i u s).block.gain = s.block.gain := rfl

@[simp] theorem setFilter_filters (i : Fid) (u : FilterUnit) (s : State) :
    (setFilter i u s).block.filters = s.block.filters.set i.val u := rfl

@[simp] theorem setFilter_chain (i : Fid) (u : FilterUnit) (s : State) :
    (setFilter i u s).block.chain = s.block.chain := rfl

@[simp] theorem setFilter_inbox (i : Fid) (u : FilterUnit) (s : State) :
    (setFilter i u s).inbox = s.inbox := rfl

@[simp] theorem setFilter_outbox (i : Fid) (u : FilterUnit) (s : State) :
    (setFilter i u s).outbox = s.outbox := rfl

@[simp] theorem setFilter_noise (i : Fid) (u : FilterUnit) (s : State) :
    (setFilter i u s).noise = s.noise := rfl

/-! ### `setChain` -/

@[simp] theorem setChain_active (chain : List Stage) (s : State) :
    (setChain chain s).block.active = s.block.active := rfl

@[simp] theorem setChain_staged (chain : List Stage) (s : State) :
    (setChain chain s).block.staged = s.block.staged := rfl

@[simp] theorem setChain_voices (chain : List Stage) (s : State) :
    (setChain chain s).block.voices = s.block.voices := rfl

@[simp] theorem setChain_gain (chain : List Stage) (s : State) :
    (setChain chain s).block.gain = s.block.gain := rfl

@[simp] theorem setChain_filters (chain : List Stage) (s : State) :
    (setChain chain s).block.filters = s.block.filters := rfl

@[simp] theorem setChain_chain (chain : List Stage) (s : State) :
    (setChain chain s).block.chain = chain := rfl

@[simp] theorem setChain_inbox (chain : List Stage) (s : State) :
    (setChain chain s).inbox = s.inbox := rfl

@[simp] theorem setChain_outbox (chain : List Stage) (s : State) :
    (setChain chain s).outbox = s.outbox := rfl

@[simp] theorem setChain_noise (chain : List Stage) (s : State) :
    (setChain chain s).noise = s.noise := rfl

/-! ### `setGain` -/

@[simp] theorem setGain_active (gain : F64) (s : State) :
    (setGain gain s).block.active = s.block.active := rfl

@[simp] theorem setGain_staged (gain : F64) (s : State) :
    (setGain gain s).block.staged = s.block.staged := rfl

@[simp] theorem setGain_voices (gain : F64) (s : State) :
    (setGain gain s).block.voices = s.block.voices := rfl

@[simp] theorem setGain_gain (gain : F64) (s : State) :
    (setGain gain s).block.gain = gain := rfl

@[simp] theorem setGain_filters (gain : F64) (s : State) :
    (setGain gain s).block.filters = s.block.filters := rfl

@[simp] theorem setGain_chain (gain : F64) (s : State) :
    (setGain gain s).block.chain = s.block.chain := rfl

@[simp] theorem setGain_inbox (gain : F64) (s : State) :
    (setGain gain s).inbox = s.inbox := rfl

@[simp] theorem setGain_outbox (gain : F64) (s : State) :
    (setGain gain s).outbox = s.outbox := rfl

@[simp] theorem setGain_noise (gain : F64) (s : State) :
    (setGain gain s).noise = s.noise := rfl

/-! ### `setStaged` -/

@[simp] theorem setStaged_active (pr : Preset) (s : State) :
    (setStaged pr s).block.active = s.block.active := rfl

@[simp] theorem setStaged_staged (pr : Preset) (s : State) :
    (setStaged pr s).block.staged = pr := rfl

@[simp] theorem setStaged_voices (pr : Preset) (s : State) :
    (setStaged pr s).block.voices = s.block.voices := rfl

@[simp] theorem setStaged_gain (pr : Preset) (s : State) :
    (setStaged pr s).block.gain = s.block.gain := rfl

@[simp] theorem setStaged_filters (pr : Preset) (s : State) :
    (setStaged pr s).block.filters = s.block.filters := rfl

@[simp] theorem setStaged_chain (pr : Preset) (s : State) :
    (setStaged pr s).block.chain = s.block.chain := rfl

@[simp] theorem setStaged_inbox (pr : Preset) (s : State) :
    (setStaged pr s).inbox = s.inbox := rfl

@[simp] theorem setStaged_outbox (pr : Preset) (s : State) :
    (setStaged pr s).outbox = s.outbox := rfl

@[simp] theorem setStaged_noise (pr : Preset) (s : State) :
    (setStaged pr s).noise = s.noise := rfl

/-! ### `setStagedRecord` -/

@[simp] theorem setStagedRecord_active (o : Op) (r : OpRecord) (s : State) :
    (setStagedRecord o r s).block.active = s.block.active := rfl

@[simp] theorem setStagedRecord_staged (o : Op) (r : OpRecord) (s : State) :
    (setStagedRecord o r s).block.staged =
      { s.block.staged with records := s.block.staged.records.set o.val r } := rfl

@[simp] theorem setStagedRecord_voices (o : Op) (r : OpRecord) (s : State) :
    (setStagedRecord o r s).block.voices = s.block.voices := rfl

@[simp] theorem setStagedRecord_gain (o : Op) (r : OpRecord) (s : State) :
    (setStagedRecord o r s).block.gain = s.block.gain := rfl

@[simp] theorem setStagedRecord_filters (o : Op) (r : OpRecord) (s : State) :
    (setStagedRecord o r s).block.filters = s.block.filters := rfl

@[simp] theorem setStagedRecord_chain (o : Op) (r : OpRecord) (s : State) :
    (setStagedRecord o r s).block.chain = s.block.chain := rfl

@[simp] theorem setStagedRecord_inbox (o : Op) (r : OpRecord) (s : State) :
    (setStagedRecord o r s).inbox = s.inbox := rfl

@[simp] theorem setStagedRecord_outbox (o : Op) (r : OpRecord) (s : State) :
    (setStagedRecord o r s).outbox = s.outbox := rfl

@[simp] theorem setStagedRecord_noise (o : Op) (r : OpRecord) (s : State) :
    (setStagedRecord o r s).noise = s.noise := rfl

end Sys2Proof.Machine
end

