-- ==== Sys2Proof/Laws/Step.lean ====
section
/-! SUPPORT. Everything one step can do: the three cases of the command port (R69, R85, R238), and that
every command takes a next state (R220). -/

namespace Sys2Proof.Machine

open Sys2Proof

/-- Every command takes a next state: no meaning ends in a fault or a refusal of the model. -/
theorem exec_next (i : Instr) (s : State) : ∃ t, exec i s = .next t := by
  cases i <;> exact ⟨_, rfl⟩

/-- The step by what the command port holds. -/
theorem step_cases (s t : State) (h : step s = .next t) :
    (s.inbox = [] ∧ t = s) ∨
    ∃ w rest, s.inbox = w :: rest ∧
      ((∃ i, decode w = .ok i ∧ exec i { s with inbox := rest } = .next t) ∨
        (∃ e, decode w = .error e ∧ t = refuse .illegal { s with inbox := rest })) := by
  unfold step takeCommand at h
  split at h
  · rename_i none
    split at none
    · rename_i empty
      exact .inl ⟨empty, by injection h with h; exact h.symm⟩
    · cases none
  · rename_i w s' some
    split at some
    · cases some
    · rename_i w' rest port
      injection some with some
      injection some with ew es
      subst ew; subst es
      refine .inr ⟨w', rest, port, ?_⟩
      split at h
      · rename_i i decoded; exact .inl ⟨i, decoded, h⟩
      · rename_i e decoded
        exact .inr ⟨e, decoded, by injection h with h; exact h.symm⟩

end Sys2Proof.Machine
end

