-- ==== Sys2Proof/Laws/Topology.lean ====
section
/-! SUPPORT. Membership in operator sets, and what an application over `REACH` does to one slot (R11, R24,
R39, R140, R141). -/

namespace Sys2Proof.Machine

open Sys2Proof

theorem inSet_zero (o : Op) : inSet 0 o = false := by
  unfold inSet; simp

theorem inSet_or (a b : OpSet) (o : Op) : inSet (a ||| b) o = (inSet a o || inSet b o) := by
  unfold inSet; simp

theorem inSet_and_not (a b : OpSet) (o : Op) : inSet (a &&& ~~~b) o = (inSet a o && !inSet b o) := by
  unfold inSet
  have h : o.val < 36 := o.isLt
  simp [h]

theorem inSet_opBit (m o : Op) : inSet (opBit m) o = decide (o = m) := by
  unfold inSet opBit
  rw [BitVec.getLsbD_twoPow]
  have h : m.val < 36 := m.isLt
  by_cases e : o = m
  · simp [e]
  · have : ¬ m.val = o.val := fun c => e (Fin.ext c.symm)
    simp [e, this]

/-- Two sets with the same members are the same set. -/
theorem opSet_ext (a b : OpSet) (same : ∀ o, inSet a o = inSet b o) : a = b := by
  apply BitVec.eq_of_getLsbD_eq
  intro i hi
  exact same ⟨i, hi⟩

theorem mem_members (set : OpSet) (o : Op) : o ∈ members set ↔ inSet set o = true := by
  unfold members; simp

theorem nodup_members (set : OpSet) : (members set).Nodup :=
  (List.nodup_finRange _).filter _

/-- The members come in ascending order (R11). -/
theorem pairwise_members (set : OpSet) : (members set).Pairwise (· < ·) :=
  (List.pairwise_lt_finRange _).filter _

/-- The slot of one operator after an application over `REACH`. -/
theorem getElem_mapReach (pr : Preset) (f : OpRecord → OpSlot → OpSlot)
    (ops : Vector OpSlot maxOps) (o : Op) :
    (mapReach pr f ops)[o] =
      if inSet (reach pr) o then f pr.records[o] ops[o] else ops[o] := by
  unfold mapReach; simp

/-- The frame of an operator writes that operator's envelope alone (R139). -/
theorem getElem_frame_ops (P : OpenParams) (pr : Preset) (t : BitVec 64) (acc : TickAcc) (o k : Op) :
    (frame P pr t acc o).ops[k] =
      if k = o then { acc.ops[o] with env := envStep P pr.records[o] acc.ops[o].env }
      else acc.ops[k] := by
  unfold frame
  by_cases e : k = o
  · subst e; simp
  · have : ¬ o.val = k.val := fun c => e (Fin.ext c.symm)
    simp [e, Vector.getElem_set_ne _ _ this]

/-- Edges along which a rank falls have no cycle (R213). -/
theorem not_cyclic_of_rank (mods : Vector OpSet maxOps) (rank : Op → Nat)
    (falls : ∀ m o : Op, hasEdge mods m o = true → rank o < rank m) : ¬ Cyclic mods := by
  have path : ∀ a b : Op, Relation.TransGen (Edge mods) a b → rank b < rank a := by
    intro a b h
    induction h with
    | single e => exact falls _ _ e
    | tail _ e ih => exact lt_trans (falls _ _ e) ih
  rintro ⟨o, h⟩
  exact lt_irrefl _ (path o o h)

end Sys2Proof.Machine
end

