-- ==== Sys2Proof/Tests/Fixture.lean ====
section
/-! SUPPORT. The test fixture T1 of spec/95_test_vectors.md section 1: one instantiation of the open
parameters under which most results are exact. A fixture, not a property of the hardware. -/

namespace Sys2Proof.Tests

open Sys2Proof Sys2Proof.Machine

/-- Arithmetic for the fixture's own functions; only its NaN is used. -/
def plain : OpenParams :=
  { sampleRate := 16, filterCount := 4, qLow := f64One, qHigh := f64One, levelTable := fun _ => 0,
    rateSeconds := fun _ => 0, outputTable := fun _ => 0, feedbackTable := fun _ => 0,
    sine := fun x => x, cosine := fun x => x, arcSine := fun x => x, arcTangent := fun x => x,
    cotangent := fun x => x, breakpointLower := fun c _ => c, breakpointUpper := fun c _ => c,
    breakpointCurve := fun _ x => x, distortionShape := fun _ x => x, noiseDraw := fun _ => 0,
    nanResult := fun _ _ _ => 0x7FF8000000000000#64 }

/-- `2^-n` for small `n`. -/
def powHalf (n : Nat) : F64 := BitVec.ofNat 64 ((1023 - n) * 2 ^ 52)

/-- `pi/2` of T1. -/
abbrev halfPi : F64 := 0x3FF921FB54442D18#64

/-- The integer nearest to a finite value, ties to even. -/
def nearestInt (q : F64) : Int :=
  let n := signedUnitsOf q
  let u : Int := unitsPerOne
  let d := n / u
  let r := n % u
  if 2 * r > u ∨ (2 * r = u ∧ d % 2 = 1) then d + 1 else d

/-- `I2F` of an integer. -/
def intToF (n : Int) : F64 := if n < 0 then fNeg (i2f n.natAbs) else i2f n.natAbs

/-- `QK(x)` of T1. -/
def quarter (x : F64) : Int := nearestInt (fDiv plain x halfPi) % 4

/-- A NaN. -/
abbrev someNaN : F64 := 0x7FF8000000000000#64

/-- `SIN` of T1. -/
def t1Sin (x : F64) : F64 :=
  if !isFinite x then someNaN
  else if quarter x = 1 then f64One else if quarter x = 3 then f64MinusOne else posZero

/-- `COS` of T1. -/
def t1Cos (x : F64) : F64 :=
  if !isFinite x then someNaN
  else if quarter x = 0 then f64One else if quarter x = 2 then f64MinusOne else posZero

/-- `ATAN` of T1. -/
def t1Atan (x : F64) : F64 :=
  if !isFinite x then someNaN
  else
    let kf := intToF (signedUnitsOf (fDiv plain x f64Pi) / (unitsPerOne : Int))
    fSub plain halfPi (fSub plain x (fMul plain f64Pi kf))

/-- `BP_CURVE` of T1. -/
def t1Curve (k : Nat) (r : F64) : F64 :=
  let sq := fMul plain r r
  let cube := fMul plain sq r
  match k with
  | 0 => fSub plain f64Two r
  | 1 => r
  | 2 => fSub plain f64Two sq
  | 3 => sq
  | 4 => fSub plain f64Two cube
  | _ => cube

/-- The fixture T1 with a list of noise draws. -/
def t1 (draws : List F64) : OpenParams :=
  { plain with
    qLow := 0x3FC0000000000000#64
    qHigh := 0x4030000000000000#64
    levelTable := fun i => powHalf (9 - i / 10)
    rateSeconds := fun i => powHalf (i / 10)
    outputTable := fun i => powHalf (9 - i / 10)
    feedbackTable := fun d => roundUnits false (d.natAbs * unitsPerOne) 8
    sine := t1Sin
    cosine := t1Cos
    arcSine := fun x => fMul plain x halfPi
    arcTangent := t1Atan
    breakpointLower := fun c d => fSub plain c (i2f d)
    breakpointUpper := fun c d => fAdd plain c (i2f d)
    breakpointCurve := t1Curve
    distortionShape := fun l x => fclamp (fMul plain x (fAdd plain f64One l)) f64MinusOne f64One
    noiseDraw := fun n => draws.getD n 0 }

end Sys2Proof.Tests
end

