-- ==== Sys2Proof/Tests/Slice0.lean ====
section
/-! SUPPORT. Tests on fixed values: the decoding of a word written out from R81 to R84 for every command, the
checks of well-formedness, and single steps. The expected results are those of the rules' own examples and
of spec/95_test_vectors.md; the fixture T1 stands for the open parameters. -/

namespace Sys2Proof.Tests

open Sys2Proof Sys2Proof.Machine

set_option Elab.async false

/-! ### Decoding (R81 to R85; words of R95, of the rules' examples and of 95_test_vectors.md 3.1) -/

theorem test_decode_tick : decode 0x01000000000000000000000000000000#128 = .ok (.tick) := by rfl

theorem test_decode_keyon : decode 0x02050000000000004010000000000000#128 = .ok (.keyon 5 0x4010000000000000#64) := by rfl

theorem test_decode_keyoff : decode 0x03830000000000000000000000000000#128 = .ok (.keyoff 131) := by rfl

theorem test_decode_alloff : decode 0x04000000000000000000000000000000#128 = .ok (.alloff) := by rfl

theorem test_decode_setgain : decode 0x05000000000000004029000000000000#128 = .ok (.setgain 0x4029000000000000#64) := by rfl

theorem test_decode_envrd : decode 0x08832300000000000000000000000000#128 = .ok (.envrd 131 35) := by rfl

theorem test_decode_envst : decode 0x09020300000000000000000000000000#128 = .ok (.envst 2 3) := by rfl

theorem test_decode_vact : decode 0x0A830000000000000000000000000000#128 = .ok (.vact 131) := by rfl

theorem test_decode_fcfg : decode 0x10030100000000000000000000000000#128 = .ok (.fcfg 3 1) := by rfl

theorem test_decode_fparam : decode 0x11020200000000003FE0000000000000#128 = .ok (.fparam 2 2 0x3FE0000000000000#64) := by rfl

theorem test_decode_chaddsum : decode 0x12020000000000000000000000000000#128 = .ok (.chaddsum 2) := by rfl

theorem test_decode_chaddlink : decode 0x13030000000000000000000000000000#128 = .ok (.chaddlink 3) := by rfl

theorem test_decode_chremove : decode 0x14040000000000000000000000000000#128 = .ok (.chremove 4) := by rfl

theorem test_decode_chswap : decode 0x15010200000000000000000000000000#128 = .ok (.chswap 1 2) := by rfl

theorem test_decode_chclear : decode 0x16000000000000000000000000000000#128 = .ok (.chclear) := by rfl

theorem test_decode_pclear : decode 0x20000000000000000000000000000000#128 = .ok (.pclear) := by rfl

theorem test_decode_pnops : decode 0x21240000000000000000000000000000#128 = .ok (.pnops 36) := by rfl

theorem test_decode_pcarr : decode 0x22230000000000000000000000000000#128 = .ok (.pcarr 35) := by rfl

theorem test_decode_pfbk : decode 0x23010200000000000000000000000000#128 = .ok (.pfbk 1 2) := by rfl

theorem test_decode_pmod : decode 0x24010000000000000000000000000000#128 = .ok (.pmod 1 0) := by rfl

theorem test_decode_popi : decode 0x2503020000000000FFFFFFFFFFFFFFF9#128 = .ok (.popi 3 2 0xFFFFFFFFFFFFFFF9#64) := by rfl

theorem test_decode_popf : decode 0x26230100000000004010000000000000#128 = .ok (.popf 35 1 0x4010000000000000#64) := by rfl

theorem test_decode_loadpreset : decode 0x27000000000000000000000000000000#128 = .ok (.loadpreset) := by rfl

theorem test_decode_refuses_zero_word :
    decode 0x00000000000000000000000000000000#128 = .error (.unknownOpcode 0) := by rfl

theorem test_decode_refuses_opcode_06 :
    decode 0x06000000000000000000000000000000#128 = .error (.unknownOpcode 6) := by rfl

theorem test_decode_refuses_opcode_28 :
    decode 0x28000000000000000000000000000000#128 = .error (.unknownOpcode 0x28) := by rfl

theorem test_decode_refuses_reserved_bit :
    decode 0x03050000000000010000000000000000#128 = .error .reservedNotZero := by rfl

theorem test_decode_refuses_tick_with_D :
    decode 0x01000000000000000000000000000001#128 = .error (.unusedNotZero 1) := by rfl

theorem test_decode_refuses_keyoff_with_B :
    decode 0x03050100000000000000000000000000#128 = .error (.unusedNotZero 3) := by rfl

theorem test_decodeTableWord : decodeTableWord 128 (0x24 * 2 ^ 120 + 2 ^ 112) = some (.pmod 1 0) := by rfl

/-! ### Well-formedness: each check refuses an ill-formed command (R223, R224) -/

theorem test_wellFormed_refuses_voice : Instr.wellFormed (t1 []) (.keyoff 132) = false := by
  decide +kernel

theorem test_wellFormed_refuses_operator : Instr.wellFormed (t1 []) (.pcarr 36) = false := by
  decide +kernel

theorem test_wellFormed_refuses_fid : Instr.wellFormed (t1 []) (.chaddsum 4) = false := by
  decide +kernel

theorem test_wellFormed_refuses_count : Instr.wellFormed (t1 []) (.pnops 37) = false := by
  decide +kernel

theorem test_wellFormed_refuses_int_selector : Instr.wellFormed (t1 []) (.popi 0 15 0) = false := by
  decide +kernel

theorem test_wellFormed_refuses_real_selector : Instr.wellFormed (t1 []) (.popf 0 2 0) = false := by
  decide +kernel

theorem test_wellFormed_refuses_kind : Instr.wellFormed (t1 []) (.fcfg 0 4) = false := by
  decide +kernel

theorem test_wellFormed_refuses_filter_selector : Instr.wellFormed (t1 []) (.fparam 0 4 0) = false := by
  decide +kernel

theorem test_wellFormed_refuses_filter_value : Instr.wellFormed (t1 []) (.fparam 0 0 0) = false := by
  decide +kernel

theorem test_wellFormed_refuses_frequency : Instr.wellFormed (t1 []) (.keyon 0 0x7FF8000000000000#64) = false := by
  decide +kernel

theorem test_wellFormed_refuses_gain : Instr.wellFormed (t1 []) (.setgain 0xFFF0000000000000#64) = false := by
  decide +kernel

theorem test_wellFormed_refuses_real_value : Instr.wellFormed (t1 []) (.popf 0 0 0x7FF0000000000000#64) = false := by
  decide +kernel

theorem test_wellFormed_refuses_second_operator : Instr.wellFormed (t1 []) (.pmod 0 36) = false := by
  decide +kernel

theorem test_wellFormed_refuses_second_fid : Instr.wellFormed (t1 []) (.chswap 0 4) = false := by
  decide +kernel

theorem test_wellFormed_accepts : Instr.wellFormed (t1 []) (.fparam 3 0 0x3FF0000000000000#64) = true := by
  decide +kernel

/-! ### Steps

Small states: one operator, which is the carrier. -/

/-- A preset with one operator, its record as in the example of R155: `RATIO = 1.0`, `L_A = 99`,
`R_A = 20`, `L_R = 60`, `R_R = 20`. -/
def singlePreset : Preset :=
  { Preset.reset with
    count := 1
    carriers := 1
    records := Preset.reset.records.set 0
      { OpRecord.reset with ratio := f64One, levelA := 99, speedA := 20, levelR := 60, speedR := 20 } }

/-- A machine with that preset active and staged. -/
def singleState (P : OpenParams) : State :=
  { resetWith P with block.active := singlePreset, block.staged := singlePreset }

/-- The voice 5 of R156's example: its operator in HOLD with `amp = 0.25`. -/
def heldVoice : VoiceState :=
  { VoiceState.reset with
    ops := VoiceState.reset.ops.set 0
      { OpSlot.reset with env :=
        { state := .hold, startAmp := 0x3FD0000000000000#64, endAmp := 0x3FD0000000000000#64,
          amp := 0x3FD0000000000000#64, pos := 0, size := 1 } }
    active := true }

/-- The machine with voice 5 held. -/
def heldState (P : OpenParams) : State := setVoice 5 heldVoice (singleState P)

/-- The machine with a chain. -/
def withChain (chain : List Stage) : State := setChain chain (resetWith (t1 []))

/-- R150's example. -/
theorem test_tick_after_reset :
    (tick (t1 []) (resetWith (t1 []))).outbox = [responseWord .ok posZero] := by decide +kernel

/-- O3 of 95_test_vectors.md: the noise kind gives the draw 0.5 and consumes it, and a kind without a
waveform consumes none. -/
theorem test_wave_noise :
    wave (t1 []) 4 f64One f64Two posZero 7 { waiting := [f64Half], taken := 0 } =
        (f64Half, { waiting := [], taken := 1 }) ∧
      (wave (t1 []) 9 f64One f64Two posZero 7 { waiting := [f64Half], taken := 0 }).2.waiting =
        [f64Half] := by decide +kernel

/-- R152: a held voice with waveform 0 at its first sample gives `SIN(+0.0)`, and its counter advances. -/
theorem test_tick_advances_voice :
    ((tick (t1 []) (heldState (t1 []))).block.voices[5]).elapsed = 1 := by decide +kernel

/-- R155's example. -/
theorem test_keyon_starts_voice :
    (keyOn (t1 []) 5 0x4010000000000000#64 (singleState (t1 []))).block.voices[5].ops[0] =
      { rate := 0x3FD0000000000000#64, bpMul := f64One,
        env := { state := .attack, startAmp := posZero, endAmp := f64One, amp := posZero, pos := 0,
                 size := 4 } } := by decide +kernel

/-- R229: the index check comes before the operand check, both before the preset check. -/
theorem test_keyon_refusal_order :
    (keyOn (t1 []) 200 0x7FF8000000000000#64 (resetWith (t1 []))).outbox =
      [responseWord .badIndex 0] := by decide +kernel

/-- R156's example. -/
theorem test_keyoff_releases :
    (keyOff (t1 []) 5 (heldState (t1 []))).block.voices[5].ops[0].env =
      { state := .release, startAmp := 0x3FD0000000000000#64, endAmp := 0x3FC0000000000000#64,
        amp := 0x3FD0000000000000#64, pos := 0, size := 4 } := by decide +kernel

/-- R157: as `KEYOFF`, for every voice. -/
theorem test_alloff_releases :
    (allOff (t1 []) (heldState (t1 []))).block.voices[5].ops[0].env.state = .release := by
  decide +kernel

/-- R158's example: 12.5 is stored as 10.0. -/
theorem test_setgain_clamps :
    (gainCommand 0x4029000000000000#64 (resetWith (t1 []))).block.gain = f64Ten := by decide +kernel

/-- R112, R113: the reads of the held voice. -/
theorem test_envrd_reads :
    (envRead 5 0 (heldState (t1 []))).outbox = [responseWord .ok 0x3FD0000000000000#64] := by
  decide +kernel

theorem test_envst_reads : (envState 5 0 (heldState (t1 []))).outbox = [responseWord .ok 3] := by
  decide +kernel

/-- R159. -/
theorem test_vact_reads : (voiceActive 5 (heldState (t1 []))).outbox = [responseWord .ok 1] := by
  decide +kernel

/-- R186: the kind of unit 3 becomes DIST (95_test_vectors.md 3.1). -/
theorem test_fcfg_kind :
    (filterConfig (t1 []) 3 3 (resetWith (t1 []))).block.filters[3].kind = .distortion := by
  decide +kernel

/-- R187: `FQ` above `Q_MAX = 16.0` is stored as 16.0. -/
theorem test_fparam_clamps :
    (filterParam (t1 []) 0 2 0x4059000000000000#64 (resetWith (t1 []))).block.filters[0].fq =
      0x4030000000000000#64 := by decide +kernel

/-- R171's example: unit 2 is added once. -/
theorem test_chaddsum_once :
    (chainAddCommand (t1 []) .sum 2 (withChain [⟨.sum, 2⟩])).block.chain = [⟨.sum, 2⟩] := by
  decide +kernel

/-- R172's example. -/
theorem test_chaddlink_appends :
    (chainAddCommand (t1 []) .link 0 (withChain [⟨.sum, 2⟩])).block.chain =
      [⟨.sum, 2⟩, ⟨.link, 0⟩] := by decide +kernel

/-- R173's example. -/
theorem test_chremove_keeps_order :
    (chainRemoveCommand (t1 []) 0 (withChain [⟨.sum, 2⟩, ⟨.link, 0⟩, ⟨.link, 1⟩])).block.chain =
      [⟨.sum, 2⟩, ⟨.link, 1⟩] := by decide +kernel

/-- R174: the whole pairs are exchanged, each with its own mode. -/
theorem test_chswap_pairs :
    (chainSwapCommand (t1 []) 2 1 (withChain [⟨.sum, 2⟩, ⟨.link, 0⟩, ⟨.link, 1⟩])).block.chain =
      [⟨.link, 1⟩, ⟨.link, 0⟩, ⟨.sum, 2⟩] := by decide +kernel

/-- R175. -/
theorem test_chclear_empties : (chainClearCommand (withChain [⟨.sum, 2⟩])).block.chain = [] := by
  decide +kernel

/-- R201. -/
theorem test_pclear_empties :
    (stageClear (singleState (t1 []))).block.staged.carriers = 0 := by decide +kernel

/-- R202. -/
theorem test_pnops_count : (stageCount 36 (resetWith (t1 []))).block.staged.count = 36 := by
  decide +kernel

/-- R203: carrier 35 is bit 35. -/
theorem test_pcarr_bit :
    (stageCarrier 35 (resetWith (t1 []))).block.staged.carriers = 0x800000000 := by decide +kernel

/-- R204: `A` is the source, `B` the target. -/
theorem test_pfbk_order :
    (stageFeedback 1 2 (resetWith (t1 []))).block.staged.fbSource = 1 := by decide +kernel

/-- R205: `A` modulates `B`: the edge stands in the column of the target. -/
theorem test_pmod_direction :
    (stageEdge 1 0 (resetWith (t1 []))).block.staged.mods[0] = 2 := by decide +kernel

/-- R207: `2^63 - 1` is stored as 5 in `BP_RCURVE` (95_test_vectors.md 3.1), and -7 stays in `FBDEPTH`. -/
theorem test_popi_clamps :
    (stageInt 35 14 0x7FFFFFFFFFFFFFFF#64 (resetWith (t1 []))).block.staged.records[35].bpRCurve = 5 := by
  decide +kernel

theorem test_popi_signed :
    readInt (stageInt 3 2 0xFFFFFFFFFFFFFFF9#64 (resetWith (t1 []))).block.staged.records[3]
      .fbDepth = -7 := by decide +kernel

/-- R208: `RATIO` 100.0 is stored as 32.0. -/
theorem test_popf_clamps :
    (stageReal 35 0 f64Hundred (resetWith (t1 []))).block.staged.records[35].ratio = f64ThirtyTwo := by
  decide +kernel

/-- R210, R211: the reset staging is refused, the single preset is loaded. -/
theorem test_loadpreset_refused :
    (loadPreset (resetWith (t1 []))).outbox = [responseWord .loadNops 0] := by decide +kernel

theorem test_loadpreset_commits :
    (loadPreset (heldState (t1 []))).block.voices[5] = VoiceState.reset := by decide +kernel

/-- R104's example, its fourth step: the last value of ATTACK is the start of DECAY. -/
theorem test_envStep_completes :
    envStep (t1 []) { OpRecord.reset with levelD := 80, speedD := 30 }
        { state := .attack, startAmp := posZero, endAmp := f64One, amp := 0x3FE8000000000000#64,
          pos := 3, size := 4 } =
      { state := .decay, startAmp := f64One, endAmp := f64Half, amp := f64One, pos := 0, size := 2 } := by
  decide +kernel

/-- A step takes the word that is placed. -/
theorem test_step_runs_placed_word :
    step ((withChain [⟨.sum, 2⟩]).withFetchWord 128 (0x16 * 2 ^ 120)) =
      .next (chainClearCommand (withChain [⟨.sum, 2⟩])) := by rfl

end Sys2Proof.Tests
end

