-- ==== Sys2Proof/Tests/Witnesses.lean ====
section
/-! SUPPORT. For every statement of `Sys2Proof/Certificates/Slice0/Obligations.lean` that has hypotheses, a
concrete state and operands that meet all of them together, with a witness for each clause at the ends of
its range. The theorem `witness_<Name>` belongs to `Obligations.<Name>`. -/

namespace Sys2Proof.Tests

open Sys2Proof Sys2Proof.Machine

set_option Elab.async false

/-! ### States

`single` is the machine with the one-operator preset of `Sys2Proof/Tests/Slice0.lean` loaded and staged,
`held` the same with voice 5 sounding in HOLD. -/

/-- The one-operator preset loaded, no voice sounding. -/
def single : State := singleState openParams

/-- The one-operator preset loaded, voice 5 held. -/
def held : State := heldState openParams

/-- The machine after reset with a word waiting. -/
def waiting (w : CommandWord) : State := { State.reset with inbox := [w] }

/-- No edge, no cycle. -/
theorem singlePreset_acyclic : ¬ Cyclic singlePreset.mods :=
  not_cyclic_of_rank _ (fun _ => 0) (by decide +kernel)

theorem single_active : ∀ v : Voice, single.block.voices[v].active = false := by decide +kernel

theorem held_active : ∀ v : Voice, held.block.voices[v].active = decide (v = 5) := by decide +kernel

theorem single_carriers : ∀ o : Op, inSet singlePreset.carriers o = decide (o = 0) := by
  decide +kernel

/-! ### Ports, decoding, refusals -/

theorem witness_StepRunsDecodedCommand :
    (waiting 0x01000000000000000000000000000000#128).inbox =
      0x01000000000000000000000000000000#128 :: [] ∧
    decode 0x01000000000000000000000000000000#128 = .ok .tick := ⟨rfl, rfl⟩

theorem witness_UndecodableWordAnswersIllegal :
    (waiting 0#128).inbox = 0#128 :: [] ∧ ∀ i, decode 0#128 ≠ .ok i := by
  refine ⟨rfl, fun i h => ?_⟩
  rw [show decode 0#128 = .error (.unknownOpcode 0) from rfl] at h
  cases h

theorem witness_EveryWordGetsOneResponse : (waiting 0#128).inbox = 0#128 :: [] := rfl

theorem witness_RefusedCommandChangesNothing :
    ∃ t, exec (.keyoff 132) State.reset = .next t ∧
      t.outbox = State.reset.outbox ++ [responseWord .badIndex 0] ∧ Code.badIndex ≠ .ok :=
  ⟨_, rfl, rfl, by decide⟩

/-- Every index and selector field just past its range. -/
theorem witness_BadIndexExactlyOnListedCauses :
    badIndexCause (.keyon 132 0) ∧ badIndexCause (.keyoff 132) ∧ badIndexCause (.vact 132) ∧
    badIndexCause (.envrd 132 35) ∧ badIndexCause (.envrd 131 36) ∧ badIndexCause (.envst 132 35) ∧
    badIndexCause (.envst 131 36) ∧ badIndexCause (.pcarr 36) ∧ badIndexCause (.pfbk 36 35) ∧
    badIndexCause (.pfbk 35 36) ∧ badIndexCause (.pmod 36 35) ∧ badIndexCause (.pmod 35 36) ∧
    badIndexCause (.popi 36 14 0) ∧ badIndexCause (.popi 35 15 0) ∧ badIndexCause (.popf 36 1 0) ∧
    badIndexCause (.popf 35 2 0) ∧ badIndexCause (.pnops 37) ∧ badIndexCause (.fcfg 255 3) ∧
    badIndexCause (.fcfg 0 4) ∧ badIndexCause (.fparam 255 3 0) ∧ badIndexCause (.fparam 0 4 0) ∧
    badIndexCause (.chaddsum 255) ∧ badIndexCause (.chaddlink 255) ∧ badIndexCause (.chremove 255) ∧
    badIndexCause (.chswap 255 0) ∧ badIndexCause (.chswap 0 255) := by
  have b := (numFilters_bounds openParams).2
  simp only [badIndexCause]
  refine ⟨?_, ?_, ?_, ?_, ?_, ?_, ?_, ?_, ?_, ?_, ?_, ?_, ?_, ?_, ?_, ?_, ?_, ?_, ?_, ?_, ?_, ?_, ?_,
    ?_, ?_, ?_⟩ <;> first | decide | exact b | exact Or.inl b | exact Or.inr b | exact Or.inr (by decide)

theorem witness_BadIndexExactlyOnListedCauses_answer :
    ∃ t, exec (.pnops 37) State.reset = .next t ∧
      t.outbox = State.reset.outbox ++ [responseWord .badIndex 0] := ⟨_, rfl, rfl⟩

theorem witness_BadOperandExactlyOnListedCauses :
    (badOperandCause (.keyon 131 0x7FF8000000000000#64) ∧
      ¬ badIndexCause (.keyon 131 0x7FF8000000000000#64)) ∧
    (badOperandCause (.setgain 0xFFF0000000000000#64) ∧
      ¬ badIndexCause (.setgain 0xFFF0000000000000#64)) ∧
    (badOperandCause (.popf 35 1 0x7FF0000000000000#64) ∧
      ¬ badIndexCause (.popf 35 1 0x7FF0000000000000#64)) ∧
    (badOperandCause (.fparam 0 3 0x7FF0000000000000#64) ∧
      ¬ badIndexCause (.fparam 0 3 0x7FF0000000000000#64)) ∧
    (badOperandCause (.fparam 0 0 0x8000000000000000#64) ∧
      ¬ badIndexCause (.fparam 0 0 0x8000000000000000#64)) := by
  have b := (numFilters_bounds openParams).1
  have no : ∀ k : BitVec 8, k.toNat < 4 →
      ¬ (numFilters openParams ≤ (0 : BitVec 8).toNat ∨ 4 ≤ k.toNat) := by
    intro k hk h
    rcases h with h | h
    · exact absurd (Nat.le_trans b h) (by decide)
    · omega
  simp only [badIndexCause, badOperandCause]
  exact ⟨⟨by decide +kernel, by decide⟩, ⟨by decide +kernel, by decide⟩,
    ⟨by decide +kernel, by decide⟩, ⟨Or.inl (by decide +kernel), no 3 (by decide)⟩,
    ⟨Or.inr ⟨trivial, by decide +kernel⟩, no 0 (by decide)⟩⟩

theorem witness_BadOperandExactlyOnListedCauses_answer :
    ∃ t, exec (.setgain 0x7FF8000000000000#64) State.reset = .next t ∧
      t.outbox = State.reset.outbox ++ [responseWord .badOperand 0] :=
  ⟨_, rfl, by decide +kernel⟩

theorem witness_CodesLimitedToTable :
    ∃ t, exec .loadpreset State.reset = .next t ∧
      t.outbox = State.reset.outbox ++ [responseWord .loadNops 0] := ⟨_, rfl, by decide +kernel⟩

theorem witness_NoPresetExactlyOnUnloadedKeyon :
    (131 : BitVec 8).toNat < 132 ∧ isFinite f64One = true ∧ State.reset.block.active.count = 0 ∧
    ∃ t, exec (.keyon 131 f64One) State.reset = .next t ∧
      t.outbox = State.reset.outbox ++ [responseWord .noPreset 0] :=
  ⟨by decide, by decide +kernel, rfl, _, rfl, by decide +kernel⟩

/-- A state with its elements at their reset values and something at every input, and operands at the ends of
their ranges. -/
theorem witness_FirstCommandAfterReset :
    (withNoise (withCommand State.reset 0) [f64Half]).block = State.reset.block ∧
    (131 : BitVec 8).toNat < 132 ∧ (35 : BitVec 8).toNat < 36 ∧ isFinite f64One = true :=
  ⟨rfl, by decide, by decide, by decide +kernel⟩

/-! ### Invariants -/

/-- The invariants hold in a state with a sounding voice, which no proof of the state after reset gives. -/
theorem witness_StepKeepsBlockInvariant : BlockInv held.block ∧ ∃ t, step held = .next t := by
  refine ⟨?_, _, rfl⟩
  have slot : ∀ (v : Voice) (o : Op), held.block.voices[v].ops[o] =
      if v = 5 ∧ o = 0 then heldVoice.ops[0] else OpSlot.reset := by
    intro v o
    by_cases e : v = 5
    · subst e; revert o; decide +kernel
    · have other : held.block.voices[v] = VoiceState.reset := by
        show ((Vector.replicate numVoices VoiceState.reset).set 5 heldVoice)[v.val] = _
        have ne : ¬ (5 : Nat) = v.val := fun c => e (Fin.ext c.symm)
        rw [Vector.getElem_set_ne _ _ ne, Vector.getElem_replicate]
      rw [if_neg (fun h => e h.1), other]
      exact Vector.getElem_replicate _
  have one : ∀ o : Op, o ≠ 0 → inSet (reach held.block.active) o = false := by decide +kernel
  refine
    { active_iff := fun v => ?_
      unloaded := fun h => absurd h (by decide)
      loaded_carrier := fun _ => by decide
      carrier_lt := by decide +kernel
      edge_lt := fun m o h => absurd h (by
        have : ∀ m o : Op, hasEdge held.block.active.mods m o = false := by decide +kernel
        unfold Edge; rw [this]; decide)
      feedback_lt := fun _ => by decide
      acyclic := singlePreset_acyclic
      chain_nodup := List.nodup_nil
      unreached := fun v o h => ?_
      slots := fun v o => ?_ }
  · rw [held_active v, decide_eq_true_iff]
    constructor
    · intro e
      subst e
      exact ⟨0, by decide, by decide⟩
    · rintro ⟨c, -, sounding⟩
      by_contra ne
      exact sounding (by rw [slot v c, if_neg (fun h => ne h.1)]; rfl)
  · rw [slot v o, if_neg]
    rintro ⟨-, e⟩
    subst e
    exact absurd h (by decide +kernel)
  · rw [slot v o]
    split
    · exact ⟨by decide, by decide, by decide, fun h => absurd h (by decide),
        fun _ => ⟨rfl, rfl, rfl⟩⟩
    · exact ⟨by decide, by decide, by decide, fun _ => rfl, fun h => absurd h (by decide)⟩

/-- A filter unit with legal parameters under every instantiation. -/
def legalUnit : FilterUnit :=
  { FilterUnit.reset openParams with ffs := f64One, fq := qMin openParams }

/-- The held state with that unit at every filter id of the instantiation. -/
def legalBlock : Block :=
  { held.block with
    filters := Vector.ofFn fun i =>
      if i.val < numFilters openParams then legalUnit else FilterUnit.reset openParams }

theorem legalBlock_filter (i : Fid) : legalBlock.filters[i] =
    if i.val < numFilters openParams then legalUnit else FilterUnit.reset openParams := by
  simp [legalBlock]

theorem singlePreset_legal : PresetLegal singlePreset := by
  have one : ∀ o : Op, singlePreset.records[o] =
      if o = 0 then singlePreset.records[(0 : Op)] else OpRecord.reset := by decide +kernel
  refine ⟨by decide, by decide, by decide, fun o => ?_⟩
  rw [one o]
  split
  · exact ⟨fun f => by cases f <;> decide, by decide +kernel, by decide +kernel⟩
  · exact ⟨fun f => by cases f <;> decide, by decide +kernel, by decide +kernel⟩

theorem witness_StepKeepsStoresLegal :
    StoresLegal openParams legalBlock ∧
      ∃ t, step { held with block := legalBlock } = .next t := by
  refine ⟨⟨singlePreset_legal, singlePreset_legal, by decide +kernel, fun i has => ?_,
    fun st mem => ?_, fun i beyond => ?_⟩, _, rfl⟩
  · rw [legalBlock_filter, if_pos has]
    have q := qBounds openParams
    have real := isNaN_of_isFinite _ q.1
    exact ⟨(by decide +kernel : isFinite f64One = true ∧ fLt posZero f64One = true),
      (by decide +kernel : isFinite posZero = true), ⟨(fLe_iff _ _).mpr ⟨real, real, le_refl _⟩, q.2.2.2⟩,
      (by decide +kernel : fLe posZero posZero = true ∧ fLe posZero f64Five = true)⟩
  · cases mem
  · rw [legalBlock_filter, if_neg (Nat.not_lt.mpr beyond)]

/-- A command that changes each kind of element. -/
theorem witness_OnlyListedCommandsWrite :
    (∃ t, exec (.setgain f64Two) single = .next t ∧ t.block.gain ≠ single.block.gain) ∧
    (∃ t, exec .pclear single = .next t ∧ t.block.staged.count ≠ single.block.staged.count ∧
      t.block.staged.carriers ≠ single.block.staged.carriers ∧
      t.block.staged.records[(0 : Op)].ratio ≠ single.block.staged.records[(0 : Op)].ratio) ∧
    (∃ t, exec (.pfbk 0 35) single = .next t ∧
      t.block.staged.fbTarget ≠ single.block.staged.fbTarget) ∧
    (∃ t, exec (.pmod 35 0) single = .next t ∧ t.block.staged.mods ≠ single.block.staged.mods) ∧
    (∃ t, exec (.popi 35 14 5) single = .next t ∧
      readInt t.block.staged.records[(35 : Op)] .bpRCurve ≠
        readInt single.block.staged.records[(35 : Op)] .bpRCurve) ∧
    (∃ t, exec .chclear (setChain [⟨.sum, 0⟩] single) = .next t ∧
      t.block.chain ≠ (setChain [⟨.sum, 0⟩] single).block.chain) ∧
    (∃ t, exec .loadpreset (setStaged (addEdge { singlePreset with count := 2 } 1 0) single) = .next t ∧
      t.block.active ≠ single.block.active) ∧
    (∃ t, exec .loadpreset held = .next t ∧
      t.block.voices[(5 : Voice)].active ≠ held.block.voices[(5 : Voice)].active) ∧
    (∃ t, exec (.keyoff 5) held = .next t ∧ t.block.voices[(5 : Voice)].ops[(0 : Op)].env ≠
      held.block.voices[(5 : Voice)].ops[(0 : Op)].env) :=
  ⟨⟨_, rfl, by decide +kernel⟩, ⟨_, rfl, by decide +kernel⟩, ⟨_, rfl, by decide +kernel⟩,
    ⟨_, rfl, by decide +kernel⟩, ⟨_, rfl, by decide +kernel⟩, ⟨_, rfl, by decide +kernel⟩,
    ⟨_, rfl, by decide +kernel⟩, ⟨_, rfl, by decide +kernel⟩,
    ⟨_, rfl, fun h => absurd (congrArg EnvSlot.state h) (by decide +kernel)⟩⟩

theorem witness_OnlyListedCommandsWrite_tick :
    (∃ t, exec .tick held = .next t ∧
      t.block.voices[(5 : Voice)].elapsed ≠ held.block.voices[(5 : Voice)].elapsed ∧
      t.block.voices[(5 : Voice)].carrierActive ≠ held.block.voices[(5 : Voice)].carrierActive) ∧
    ∃ t, exec .tick { held with block.active.records :=
        singlePreset.records.set 0 { OpRecord.reset with wave := 4 } } = .next t ∧
      t.noise ≠ held.noise :=
  ⟨⟨_, rfl, by decide +kernel⟩, _, rfl, by decide +kernel⟩

theorem witness_OnlyListedCommandsWrite_filter :
    (∃ t, exec (.fcfg 0 3) single = .next t ∧
      t.block.filters[(0 : Fid)].kind ≠ single.block.filters[(0 : Fid)].kind) ∧
    ∃ t, exec (.fparam 0 3 f64Two) single = .next t ∧
      t.block.filters[(0 : Fid)].flevel ≠ single.block.filters[(0 : Fid)].flevel := by
  have fid : fidOf openParams 0 = some 0 :=
    (fidOf_eq_some _ _ _).mpr ⟨rfl, (numFilters_bounds openParams).1⟩
  refine ⟨⟨_, rfl, ?_⟩, _, rfl, ?_⟩
  · show (filterConfig openParams 0 3 single).block.filters[(0 : Fid)].kind ≠ _
    unfold filterConfig
    rw [fid]
    decide +kernel
  · show (filterParam openParams 0 3 f64Two single).block.filters[(0 : Fid)].flevel ≠ _
    unfold filterParam
    rw [fid]
    decide +kernel

/-- A `TICK` writes the history of a unit in the chain. -/
theorem witness_OnlyListedCommandsWrite_history :
    let s := setChain [⟨.link, 0⟩]
      (setFilter 0 { FilterUnit.reset openParams with x1 := f64One } single)
    ∃ t, exec .tick s = .next t ∧ t.block.filters[(0 : Fid)].x1 ≠ s.block.filters[(0 : Fid)].x1 :=
  ⟨_, rfl, by decide +kernel⟩

/-- No value of 64 bits is its own successor. -/
theorem ne_succ (x : BitVec 64) : x ≠ x + 1 := by
  intro h
  have := congrArg (fun y => y - x) h
  simp at this

/-- The coefficients that an `FCFG` gives a unit do not depend on those it had. -/
theorem coefUpdate_b0_of_b0 (P : OpenParams) (u : FilterUnit) (x : F64) :
    (coefUpdate P (configureUnit .lowPass { u with b0 := x })).b0 =
      (coefUpdate P (configureUnit .lowPass u)).b0 := rfl

/-- `FCFG` for a low-pass, whatever coefficient `B0` the unit had. -/
theorem filterConfig_b0 (P : OpenParams) (i : Fid) (u : FilterUnit) (x : F64) (s : State)
    (fid : fidOf P 0 = some i) :
    (filterConfig P 0 0 (setFilter i { u with b0 := x } s)).block.filters[i].b0 =
      (coefUpdate P (configureUnit .lowPass u)).b0 := by
  have kind : kindOf 0 = some .lowPass := by decide
  rw [filterConfig, fid, kind]
  simp only [respondOk_block, setFilter_filters, Fin.getElem_fin, Vector.getElem_set_self]
  exact coefUpdate_b0_of_b0 P u x

/-- The state `single` whose filter unit 0 has the given coefficient `B0`. -/
def withB0 (x : F64) : State := setFilter 0 { FilterUnit.reset openParams with b0 := x } single

theorem withB0_b0 (x : F64) : (withB0 x).block.filters[(0 : Fid)].b0 = x := by
  rw [withB0, setFilter_filters]
  exact congrArg FilterUnit.b0 (Vector.getElem_set_self _)

/-- An `FCFG` changes a coefficient: every value of `B0` becomes the same one. -/
theorem witness_OnlyListedCommandsWrite_coefficient :
    ∃ x t, exec (.fcfg 0 0) (withB0 x) = .next t ∧
      t.block.filters[(0 : Fid)].b0 ≠ (withB0 x).block.filters[(0 : Fid)].b0 := by
  have fid : fidOf openParams 0 = some 0 :=
    (fidOf_eq_some _ _ _).mpr ⟨rfl, (numFilters_bounds openParams).1⟩
  have ⟨c, after⟩ : ∃ c, ∀ x,
      (filterConfig openParams 0 0 (withB0 x)).block.filters[(0 : Fid)].b0 = c :=
    ⟨_, fun x => filterConfig_b0 openParams 0 (FilterUnit.reset openParams) x single fid⟩
  refine ⟨c + 1, filterConfig openParams 0 0 (withB0 (c + 1)), rfl, ?_⟩
  rw [after, withB0_b0]
  exact ne_succ c

/-- A voice whose operator 0 has another rate and another multiplier than a reset slot. -/
def detunedVoice : VoiceState :=
  { heldVoice with ops := heldVoice.ops.set 0 { OpSlot.reset with rate := f64One, bpMul := f64Half } }

theorem witness_OnlyListedCommandsWrite_rate :
    ∃ t, exec .loadpreset (setVoice 5 detunedVoice held) = .next t ∧
      t.block.voices[(5 : Voice)].ops[(0 : Op)].rate ≠ detunedVoice.ops[(0 : Op)].rate ∧
      t.block.voices[(5 : Voice)].ops[(0 : Op)].bpMul ≠ detunedVoice.ops[(0 : Op)].bpMul :=
  ⟨_, rfl, by decide +kernel⟩

/-! ### Topology -/

/-- Operator 0 as carrier, modulated by 5, which 4 modulates. -/
def stackPreset : Preset := addEdge (addEdge { singlePreset with count := 6 } 5 0) 4 5

theorem stackPreset_order : evalOrder stackPreset = [4, 5, 0] := by decide +kernel

/-- Two carriers, 2 and 3, with the one edge from 1 to 3. -/
def forkPreset : Preset := addEdge { singlePreset with count := 4, carriers := 12 } 1 3

/-- R39: 2 comes first, for 3 has to wait for 1. -/
theorem forkPreset_order : evalOrder forkPreset = [2, 1, 3] := by decide +kernel

theorem witness_EvalOrderListsReachModulatorsFirst :
    (¬ Cyclic stackPreset.mods ∧ evalOrder stackPreset = [4, 5] ++ 0 :: [] ∧
      Edge stackPreset.mods 5 0) ∧
    ¬ Cyclic forkPreset.mods ∧ evalOrder forkPreset = [] ++ 2 :: [1, 3] ∧ (3 : Op) ∈ [1, (3 : Op)] ∧
      (2 : Op) < 3 :=
  ⟨⟨not_cyclic_of_rank _ (fun o => if o = 0 then 0 else if o = 5 then 1 else 2) (by decide +kernel),
    stackPreset_order, (by decide +kernel : hasEdge stackPreset.mods 5 0 = true)⟩,
    not_cyclic_of_rank _ (fun o => if o = 1 then 1 else 0) (by decide +kernel),
    forkPreset_order, by decide, by decide⟩

/-! ### Envelope -/

/-- A slot in the given state at the last sample of a segment of four. -/
def lastSample (st : EnvState) : EnvSlot :=
  { state := st, startAmp := posZero, endAmp := f64One, amp := f64Half, pos := 3, size := 4 }

theorem witness_EnvelopeArming :
    (∀ st ∈ [EnvState.attack, .decay, .sustain, .hold],
      (lastSample st).state ∈ [EnvState.attack, .decay, .sustain, .hold]) ∧
    ∀ st ∈ [EnvState.release, .preIdle, .idle],
      (lastSample st).state ∈ [EnvState.release, .preIdle, .idle] :=
  ⟨fun _ h => h, fun _ h => h⟩

/-- Every timed state, at the boundary `pos + 2 = size`, and both resting states. -/
theorem witness_EnvelopeStepsWithinSegment :
    (∀ st ∈ [EnvState.attack, .decay, .sustain, .release, .preIdle],
      (lastSample st).state ∈ [EnvState.attack, .decay, .sustain, .release, .preIdle] ∧
        ({ lastSample st with pos := 2 } : EnvSlot).pos + 1 < (lastSample st).size) ∧
    ((lastSample .hold).state = .hold ∨ (lastSample .hold).state = .idle) ∧
    ((lastSample .idle).state = .hold ∨ (lastSample .idle).state = .idle) :=
  ⟨by decide, .inl rfl, .inr rfl⟩

/-- Every timed state, at the boundary `pos + 1 = size`. -/
theorem witness_EnvelopeContinuity :
    ∀ st ∈ [EnvState.attack, .decay, .sustain, .release, .preIdle],
      isTimed (lastSample st).state = true ∧ (lastSample st).size ≤ (lastSample st).pos + 1 ∧
        (lastSample st).state = st := by decide

/-- The first and the last sample of the attack. -/
theorem witness_AttackAmplitudesAndHoldCount :
    (1 ≤ 1 ∧ 1 ≤ segSamples openParams OpRecord.reset.speedA.toNat) ∧
    (1 ≤ segSamples openParams OpRecord.reset.speedA.toNat ∧
      segSamples openParams OpRecord.reset.speedA.toNat ≤
        segSamples openParams OpRecord.reset.speedA.toNat) :=
  ⟨⟨le_refl _, segSamples_pos _ _⟩, segSamples_pos _ _, le_refl _⟩

theorem witness_ReleaseReachesIdleExactly :
    ∀ st ∈ [EnvState.attack, .decay, .sustain, .hold], isReleasable (lastSample st).state = true := by
  decide

/-- The first and the last slot. -/
theorem witness_ReadCommandsAnswerElement :
    ((0 : BitVec 8).toNat = (0 : Voice).val ∧ (0 : BitVec 8).toNat = (0 : Op).val) ∧
    ((131 : BitVec 8).toNat = (131 : Voice).val ∧ (35 : BitVec 8).toNat = (35 : Op).val) := by decide

/-! ### Note events -/

/-- The first voice, the last voice, a held voice. -/
theorem witness_KeyonStartsReachedOperators :
    ((0 : BitVec 8).toNat = (0 : Voice).val ∧ (131 : BitVec 8).toNat = (131 : Voice).val) ∧
    isFinite f64One = true ∧ single.block.active.count ≠ 0 ∧ held.block.active.count ≠ 0 ∧
    held.block.voices[(5 : Voice)].active = true ∧ inSet (reach held.block.active) 0 = true := by
  decide +kernel

theorem witness_KeyoffReleasesReachedOperators :
    (0 : BitVec 8).toNat = (0 : Voice).val ∧ (131 : BitVec 8).toNat = (131 : Voice).val ∧
    inSet (reach held.block.active) 0 = true ∧
    held.block.voices[(5 : Voice)].ops[(0 : Op)].env.state = .hold := by decide +kernel

theorem witness_KeyonsOfDifferentVoicesCommute :
    ∃ s1 s2 t1 t2, (0 : BitVec 8) ≠ 131 ∧
      exec (.keyon 0 f64One) single = .next s1 ∧ exec (.keyon 131 f64Two) s1 = .next s2 ∧
      exec (.keyon 131 f64Two) single = .next t1 ∧ exec (.keyon 0 f64One) t1 = .next t2 ∧
      s1.outbox = [responseWord .ok 0] ∧ t1.outbox = [responseWord .ok 0] :=
  ⟨_, _, _, _, by decide, rfl, rfl, rfl, rfl, by decide +kernel, by decide +kernel⟩

/-- Below, inside and above [0, 10]. -/
theorem witness_SetgainClampsGain :
    isFinite f64MinusOne = true ∧ isFinite f64Five = true ∧ isFinite f64Hundred = true := by
  decide +kernel

/-! ### The sample tick -/

/-- An active and an inactive voice, a unit in the chain and one outside it. -/
theorem witness_TickFrame :
    held.block.voices[(5 : Voice)].active = true ∧ held.block.voices[(131 : Voice)].active = false ∧
    (∀ st ∈ (setChain [⟨.sum, 0⟩] held).block.chain, st.fid ≠ 1) := by decide +kernel

theorem witness_TickStepsReachedEnvelopesOnce :
    ¬ Cyclic held.block.active.mods ∧ (∃ t, exec .tick held = .next t) ∧
    held.block.voices[(5 : Voice)].active = true ∧ inSet held.block.active.carriers 0 = true ∧
    inSet held.block.active.carriers 35 = false :=
  ⟨singlePreset_acyclic, ⟨_, rfl⟩, by decide +kernel, by decide, by decide⟩

theorem witness_SilentTickRunsChain : ∀ v : Voice, single.block.voices[v].active = false :=
  single_active

/-- The one-operator preset with the voices 5 and 131 held. -/
def duo : State := setVoice 131 heldVoice held

theorem duo_active : ∀ v : Voice, v ∈ [5, (131 : Voice)] ↔ duo.block.voices[v].active = true := by
  decide +kernel

/-- No voice, one, and two: every split of the second. -/
theorem witness_TickMixesActiveVoices :
    (([] : List Voice).Pairwise (· < ·) ∧
      ∀ v : Voice, v ∈ ([] : List Voice) ↔ single.block.voices[v].active = true) ∧
    ([5, (131 : Voice)].Pairwise (· < ·) ∧
      ∀ v : Voice, v ∈ [5, (131 : Voice)] ↔ duo.block.voices[v].active = true) ∧
    [5, (131 : Voice)] = [] ++ 5 :: [131] ∧ [5, (131 : Voice)] = [5] ++ 131 :: [] ∧
    ∀ u : Voice, held.block.voices[u].active = decide (u = 5) :=
  ⟨⟨List.Pairwise.nil, fun v => by rw [single_active v]; simp⟩, ⟨by decide, duo_active⟩, rfl, rfl,
    held_active⟩

/-- A carrier with modulators two deep, two carriers, and a carrier alone. -/
theorem witness_VoiceSampleEvaluatesGraph :
    (¬ Cyclic stackPreset.mods ∧ inSet (reach stackPreset) 4 = true ∧
      evalOrder stackPreset = 4 :: [5, 0] ∧ evalOrder stackPreset = [4] ++ 5 :: 0 :: [] ∧
      evalOrder stackPreset = [4, 5] ++ [0]) ∧
    (¬ Cyclic forkPreset.mods ∧ [2, (3 : Op)].Pairwise (· < ·) ∧
      ∀ c : Op, c ∈ [2, (3 : Op)] ↔ inSet forkPreset.carriers c = true) ∧
    (∀ o : Op, inSet singlePreset.carriers o = decide (o = 0)) ∧ modSet singlePreset 0 = 0 :=
  ⟨⟨witness_EvalOrderListsReachModulatorsFirst.1.1, by decide +kernel, stackPreset_order,
    stackPreset_order, stackPreset_order⟩,
    ⟨witness_EvalOrderListsReachModulatorsFirst.2.1, by decide, by decide +kernel⟩,
    single_carriers, by decide +kernel⟩

/-- No modulator, one, and two. -/
theorem witness_ModulationAveragesFrames :
    modSet singlePreset 0 = 0 ∧
    (([5] : List Op).Pairwise (· < ·) ∧
      ∀ k : Op, k ∈ ([5] : List Op) ↔ inSet (modSet stackPreset 0) k = true) ∧
    (([4, 5] : List Op).Pairwise (· < ·) ∧
      ∀ k : Op, k ∈ ([4, 5] : List Op) ↔ inSet (modSet (addEdge stackPreset 4 0) 0) k = true) := by
  decide +kernel

/-- Not the source; the source at depths 0, 1, 7, -1 and -7. -/
theorem witness_FeedbackSumsHarmonics :
    (1 : Op).val ≠ singlePreset.fbSource.toNat ∧ (0 : Op).val = singlePreset.fbSource.toNat ∧
    singlePreset.records[(0 : Op)].fbDepth.toInt = 0 ∧
    0 < (storeInt OpRecord.reset .fbDepth 1).fbDepth.toInt ∧
    0 < (storeInt OpRecord.reset .fbDepth 7).fbDepth.toInt ∧
    (storeInt OpRecord.reset .fbDepth (-1)).fbDepth.toInt < 0 ∧
    (storeInt OpRecord.reset .fbDepth (-7)).fbDepth.toInt < 0 := by decide

theorem witness_TickWithoutNoiseIsDeterministic :
    (∀ o : Op, inSet (reach held.block.active) o = true → held.block.active.records[o].wave ≠ 4) ∧
    inSet (reach held.block.active) 0 = true := by decide +kernel

/-- The first and the last kind without a waveform; noise values at the ends of the range. -/
theorem witness_WaveByKind :
    (5 ≤ (5 : BitVec 8).toNat ∧ 5 ≤ (255 : BitVec 8).toNat) ∧
    (withNoise single [f64MinusOne, f64One]).noise.waiting = f64MinusOne :: [f64One] ∧
    (fLe f64MinusOne f64MinusOne = true ∧ fLe f64MinusOne f64One = true) ∧
    (fLe f64MinusOne f64One = true ∧ fLe f64One f64One = true) :=
  ⟨by decide, rfl, by decide +kernel, by decide +kernel⟩

theorem witness_VoiceReclaimedAfterExactCount :
    (5 : BitVec 8).toNat = (5 : Voice).val ∧ ¬ Cyclic held.block.active.mods ∧
    (∀ o : Op, inSet held.block.active.carriers o = decide (o = 0)) ∧
    held.block.voices[(5 : Voice)].active = true ∧
    isReleasable held.block.voices[(5 : Voice)].ops[(0 : Op)].env.state = true ∧
    ∃ s', exec (.keyoff 5) held = .next s' :=
  ⟨by decide, singlePreset_acyclic, single_carriers, by decide +kernel, by decide +kernel, _, rfl⟩

/-! ### Breakpoint -/

/-- At the center (`-0.0` against a center `+0.0` too), below it and above it. -/
theorem witness_BreakpointIdentityAndNoop :
    fEq 0x8000000000000000#64 OpRecord.reset.bpCenter = true ∧
    (fLt f64MinusOne OpRecord.reset.bpCenter = true ∧ OpRecord.reset.bpLDepth = 0) ∧
    (fLt OpRecord.reset.bpCenter f64One = true ∧ OpRecord.reset.bpRDepth = 0) := by decide +kernel

/-- Depths 1 and 99, below and above the center; and a ratio that is a NaN, for the frequency is one. -/
theorem witness_BreakpointLevelBySide :
    let r : OpRecord := { OpRecord.reset with bpCenter := f64One, bpLDepth := 1, bpRDepth := 99 }
    (fLt f64Half r.bpCenter = true ∧ r.bpLDepth ≠ 0) ∧ (fLt r.bpCenter f64Two = true ∧ r.bpRDepth ≠ 0) := by
  decide +kernel

/-- Under T1 with a curve that passes its ratio on, a NaN frequency gives a NaN multiplier. -/
theorem witness_BreakpointLevelBySide_nan :
    let r : OpRecord := { OpRecord.reset with bpCenter := f64One, bpRDepth := 99, bpRCurve := 1 }
    isNaN (bpLevel (t1 []) r 0x7FF8000000000000#64) = true := by decide +kernel

/-! ### Filters and chain -/

/-- The last unit of the instantiation, whatever their number. -/
def lastUnit : Fid :=
  ⟨numFilters openParams - 1, by have := numFilters_bounds openParams; omega⟩

/-- The operand that names the last unit. -/
def lastId : BitVec 8 := BitVec.ofNat 8 (numFilters openParams - 1)

theorem lastId_names : lastId.toNat = lastUnit.val ∧ lastUnit.val < numFilters openParams := by
  have b : 1 ≤ numFilters openParams ∧ numFilters openParams ≤ 255 := numFilters_bounds openParams
  refine ⟨?_, ?_⟩
  · show (BitVec.ofNat 8 _).toNat = numFilters openParams - 1
    rw [BitVec.toNat_ofNat]
    exact Nat.mod_eq_of_lt (by omega)
  · show numFilters openParams - 1 < numFilters openParams
    omega

theorem firstId_names : (0 : BitVec 8).toNat = (0 : Fid).val ∧ (0 : Fid).val < numFilters openParams :=
  ⟨rfl, (numFilters_bounds openParams).1⟩

/-- The first and the last unit; every kind. -/
theorem witness_FcfgConfiguresUnit :
    ((0 : BitVec 8).toNat = (0 : Fid).val ∧ (0 : Fid).val < numFilters openParams) ∧
    (lastId.toNat = lastUnit.val ∧ lastUnit.val < numFilters openParams) ∧
    (0 : BitVec 8).toNat < 4 ∧ (2 : BitVec 8).toNat < 3 ∧ (3 : BitVec 8).toNat = 3 :=
  ⟨firstId_names, lastId_names, by decide, by decide, by decide⟩

/-- The first and the last unit; the first and the last selector; a biquad and a distortion unit. -/
theorem witness_FparamStoresParameter :
    ((0 : BitVec 8).toNat = (0 : Fid).val ∧ (0 : Fid).val < numFilters openParams) ∧
    (lastId.toNat = lastUnit.val ∧ lastUnit.val < numFilters openParams) ∧
    (0 : BitVec 8) < 4 ∧ (3 : BitVec 8) < 4 ∧ isFinite f64One = true ∧ fLt posZero f64One = true ∧
    single.block.filters[(0 : Fid)].kind ≠ .distortion ∧
    (setFilter 0 { FilterUnit.reset openParams with kind := .distortion } single).block.filters[(0 : Fid)].kind =
      .distortion :=
  ⟨firstId_names, lastId_names, by decide, by decide, by decide +kernel, by decide +kernel,
    by decide +kernel, by decide +kernel⟩

theorem witness_FilterStep :
    (FilterUnit.reset openParams).kind ≠ .distortion ∧
    ({ FilterUnit.reset openParams with kind := .distortion } : FilterUnit).kind = .distortion :=
  ⟨by decide, rfl⟩

/-- A unit that is not in the chain, and one that is. -/
theorem witness_ChainAddAppendsOnce :
    ((0 : BitVec 8).toNat = (0 : Fid).val ∧ (0 : Fid).val < numFilters openParams) ∧
    (∀ st ∈ single.block.chain, st.fid ≠ 0) ∧
    ∃ st ∈ (setChain [⟨.link, 0⟩] single).block.chain, st.fid = 0 :=
  ⟨firstId_names, by decide, ⟨.link, 0⟩, List.mem_singleton.mpr rfl, rfl⟩

theorem witness_ChainRemoveAndClear :
    ((0 : BitVec 8).toNat = (0 : Fid).val ∧ (0 : Fid).val < numFilters openParams) ∧
    ((setChain [⟨.link, 0⟩] single).block.chain.map Stage.fid).Nodup :=
  ⟨firstId_names, by decide⟩

/-- Both in the chain at different places, one absent, and both the same. -/
theorem witness_ChainSwapExchangesPairs :
    (lastId.toNat = lastUnit.val ∧ lastUnit.val < numFilters openParams) ∧
    ((0 : BitVec 8).toNat = (0 : Fid).val ∧ (0 : Fid).val < numFilters openParams) ∧
    (([⟨.sum, 0⟩, ⟨.link, 1⟩] : List Stage).map Stage.fid).Nodup ∧
    (∃ sp, ([⟨.sum, 0⟩, ⟨.link, lastUnit⟩] : List Stage)[0]? = some sp ∧ sp.fid = 0) ∧
    (∃ sq, ([⟨.sum, 0⟩, ⟨.link, lastUnit⟩] : List Stage)[1]? = some sq ∧ sq.fid = lastUnit) ∧
    (∀ st ∈ ([⟨.sum, 1⟩] : List Stage), st.fid ≠ 0) ∧ (0 : Fid) = 0 :=
  ⟨lastId_names, firstId_names, by decide, ⟨_, rfl, rfl⟩, ⟨_, rfl, rfl⟩, by decide, rfl⟩

theorem witness_ChainComposition :
    ([⟨.sum, 0⟩] : List Stage) ≠ [] ∧ ([⟨.sum, 0⟩, ⟨.link, 254⟩] : List Stage) ≠ [] := by decide

/-- The unit after reset is the neutral one. -/
theorem witness_NeutralChainIsIdentity :
    let u := single.block.filters[(0 : Fid)]
    u.kind ≠ .distortion ∧ u.b0 = f64One ∧ u.b1 = posZero ∧ u.b2 = posZero ∧ u.a1 = posZero ∧
    u.a2 = posZero ∧ u.x1 = posZero ∧ u.x2 = posZero ∧ u.y1 = posZero ∧ u.y2 = posZero ∧
    isFinite f64One = true ∧ isFinite 0x8000000000000000#64 = true := by decide +kernel

/-! ### Preset staging and load -/

theorem witness_StagingWritesTopology :
    (0 : BitVec 8).toNat = (0 : Op).val ∧ (35 : BitVec 8).toNat = (35 : Op).val ∧
    (0 : BitVec 8).toNat ≤ 36 ∧ (36 : BitVec 8).toNat ≤ 36 := by decide

theorem witness_PopiSelectorTable : 15 ≤ (15 : BitVec 8).toNat ∧ 15 ≤ (255 : BitVec 8).toNat := by
  decide

/-- The first and the last operator and selector; operands below, in and above the domain. -/
theorem witness_PopiStoresClampedInteger :
    ((0 : BitVec 8).toNat = (0 : Op).val ∧ intFieldOf 0 = some .wave) ∧
    ((35 : BitVec 8).toNat = (35 : Op).val ∧ intFieldOf 14 = some .bpRCurve) ∧
    (BitVec.ofInt 64 (-8)).toInt < (intDomain .fbDepth).1 ∧
    (intDomain .fbDepth).2 < (8 : BitVec 64).toInt ∧ IntField.wave ≠ .bpRCurve := by decide

theorem witness_PopfStoresReal :
    (0 : BitVec 8).toNat = (0 : Op).val ∧ (35 : BitVec 8).toNat = (35 : Op).val ∧
    (0 : BitVec 8).toNat < 2 ∧ (1 : BitVec 8).toNat < 2 ∧ isFinite f64Hundred = true := by
  decide +kernel

/-- A staged preset for each of the six checks that fails there first. -/
theorem witness_LoadRefusedByFirstFailingCheck :
    (loadFault Preset.reset = [] ++ (.loadNops, Preset.reset.count = 0) :: (loadFault Preset.reset).drop 1 ∧
      Preset.reset.count = 0) ∧
    (∀ c : Op, inSet ({ Preset.reset with count := 1 } : Preset).carriers c = false) ∧
    (∃ c : Op, inSet ({ Preset.reset with count := 1, carriers := 2 } : Preset).carriers c = true ∧
      1 ≤ c.val) ∧
    (∃ m o : Op, Edge (addEdge singlePreset 1 0).mods m o ∧ (1 ≤ m.val ∨ 1 ≤ o.val)) ∧
    (1 ≤ ({ singlePreset with fbSource := 1 } : Preset).fbSource.toNat) ∧
    Cyclic (addEdge singlePreset 0 0).mods :=
  ⟨⟨rfl, rfl⟩, by decide, ⟨1, by decide, by decide⟩,
    ⟨1, 0, (by decide +kernel : hasEdge (addEdge singlePreset 1 0).mods 1 0 = true), .inl (by decide)⟩,
    by decide, 0, Relation.TransGen.single
      (by decide +kernel : hasEdge (addEdge singlePreset 0 0).mods 0 0 = true)⟩

/-- The earlier checks pass where the cycle check fails. -/
theorem witness_LoadRefusedByFirstFailingCheck_last :
    ∀ c ∈ (loadFault (addEdge singlePreset 0 0)).take 5, ¬ c.2 := by
  have edge : ∀ m o : Op, hasEdge (addEdge singlePreset 0 0).mods m o = true → m = 0 ∧ o = 0 := by
    decide +kernel
  have carrier : ∀ c : Op, inSet (addEdge singlePreset 0 0).carriers c = true → c = 0 := by
    decide +kernel
  simp only [loadFault, List.take, List.mem_cons, List.not_mem_nil, or_false]
  rintro c (rfl | rfl | rfl | rfl | rfl)
  · decide
  · exact fun h => absurd (h 0) (by decide)
  · rintro ⟨c, mem, big⟩
    rw [carrier c mem] at big
    exact absurd big (by decide)
  · rintro ⟨m, o, e, big⟩
    obtain ⟨rfl, rfl⟩ := edge m o e
    exact absurd big (by decide)
  · decide

theorem witness_LoadCommitsStagedPreset : ∀ c ∈ loadFault single.block.staged, ¬ c.2 := by
  have edge : ∀ m o : Op, hasEdge singlePreset.mods m o = false := by decide +kernel
  simp only [loadFault, List.mem_cons, List.not_mem_nil, or_false]
  rintro c (rfl | rfl | rfl | rfl | rfl | rfl)
  · decide
  · exact fun h => absurd (h 0) (by decide)
  · rintro ⟨c, mem, big⟩
    have : c = 0 := of_decide_eq_true ((single_carriers c).symm.trans mem)
    subst this
    exact absurd big (by decide)
  · rintro ⟨m, o, e, -⟩
    exact Bool.noConfusion ((edge m o).symm.trans e)
  · decide
  · exact singlePreset_acyclic

/-! ### Arithmetic -/

/-- A quotient that is rounded to a finite magnitude, at a tie: half of the least subnormal; and operands of
every class, zeros of both signs among them. -/
theorem witness_ArithmeticRoundsExactResult :
    (0 < 2 ∧ roundMagnitude 1 2 < infMagnitude ∧ 1 < infMagnitude ∧ 1 ≠ roundMagnitude 1 2) ∧
    (isFinite 0x7FEFFFFFFFFFFFFF#64 = true ∧ isFinite 0x0000000000000001#64 = true ∧
      isZero 0x0000000000000001#64 = false) ∧
    (isFinite 0x8000000000000000#64 = true ∧ isZero 0x8000000000000000#64 = true) ∧
    (isInf 0x7FF0000000000000#64 = true ∧ isInf 0xFFF0000000000000#64 = true) ∧
    isNaN 0x7FF8000000000000#64 = true := by
  decide +kernel

end Sys2Proof.Tests
end

