-- ==== Sys2Proof/Proofs/Arithmetic.lean ====
section
/-! PROOFS. The binary64 arithmetic of R14: the classes of the values by their magnitude, the rounding as a
choice between two neighbouring magnitudes, and the four operations class by class of their operands. -/

namespace Sys2Proof.Machine

open Sys2Proof

/-! ### The layout: every class is an interval of magnitudes (R64) -/

theorem magnitudeOf_lt (x : F64) : magnitudeOf x < 2 ^ 63 := Nat.mod_lt _ (by decide)

theorem exponentOf_eq_div (x : F64) : exponentOf x = magnitudeOf x / 2 ^ 52 := by
  unfold exponentOf magnitudeOf; omega

theorem fractionOf_eq_mod (x : F64) : fractionOf x = magnitudeOf x % 2 ^ 52 := by
  unfold fractionOf magnitudeOf; omega

theorem isFinite_iff (x : F64) : isFinite x = true ↔ magnitudeOf x < infMagnitude := by
  have bound := magnitudeOf_lt x
  simp only [isFinite, exponentOf_eq_div, infMagnitude, bne_iff_ne]
  omega

theorem isInf_iff (x : F64) : isInf x = true ↔ magnitudeOf x = infMagnitude := by
  simp only [isInf, exponentOf_eq_div, fractionOf_eq_mod, infMagnitude, Bool.and_eq_true, beq_iff_eq]
  omega

theorem isNaN_iff (x : F64) : isNaN x = true ↔ infMagnitude < magnitudeOf x := by
  have bound := magnitudeOf_lt x
  simp only [isNaN, exponentOf_eq_div, fractionOf_eq_mod, infMagnitude, Bool.and_eq_true, beq_iff_eq,
    bne_iff_ne]
  omega

theorem isZero_iff (x : F64) : isZero x = true ↔ magnitudeOf x = 0 := beq_iff_eq

theorem isInf_of_isFinite (x : F64) (fin : isFinite x = true) : isInf x = false := by
  rw [isFinite_iff] at fin
  rw [Bool.eq_false_iff, Ne, isInf_iff]
  omega

theorem isNaN_of_isInf (x : F64) (inf : isInf x = true) : isNaN x = false := by
  rw [isInf_iff] at inf
  rw [Bool.eq_false_iff, Ne, isNaN_iff]
  omega

theorem isZero_of_isInf (x : F64) (inf : isInf x = true) : isZero x = false := by
  rw [isInf_iff] at inf
  rw [Bool.eq_false_iff, Ne, isZero_iff, inf]
  decide

theorem unitsOf_eq (x : F64) : unitsOf x = magnitudeUnits (magnitudeOf x) := by
  have subnormal : exponentOf x = 0 ↔ magnitudeOf x < 2 ^ 52 := by
    rw [exponentOf_eq_div]; omega
  unfold unitsOf magnitudeUnits
  by_cases small : magnitudeOf x < 2 ^ 52
  · rw [if_pos (subnormal.mpr small), if_pos small, fractionOf_eq_mod, Nat.mod_eq_of_lt small]
  · rw [if_neg (mt subnormal.mp small), if_neg small, fractionOf_eq_mod, exponentOf_eq_div]

/-! ### A value put together from its sign and magnitude, and the sign flip -/

theorem toNat_ofSignMagnitude (neg : Bool) (mag : Nat) (bound : mag < 2 ^ 63) :
    (ofSignMagnitude neg mag).toNat = (if neg then 2 ^ 63 else 0) + mag := by
  rw [ofSignMagnitude, BitVec.toNat_ofNat]
  apply Nat.mod_eq_of_lt
  split <;> omega

theorem signOf_ofSignMagnitude (neg : Bool) (mag : Nat) (bound : mag < 2 ^ 63) :
    signOf (ofSignMagnitude neg mag) = neg := by
  rw [signOf, BitVec.msb_eq_decide, toNat_ofSignMagnitude neg mag bound]
  cases neg
  · simpa using bound
  · simp

theorem magnitudeOf_ofSignMagnitude (neg : Bool) (mag : Nat) (bound : mag < 2 ^ 63) :
    magnitudeOf (ofSignMagnitude neg mag) = mag := by
  rw [magnitudeOf, toNat_ofSignMagnitude neg mag bound]
  split <;> omega

@[simp] theorem signOf_fNeg (x : F64) : signOf (fNeg x) = !signOf x := by
  rw [signOf, signOf, fNeg, BitVec.msb_xor]
  exact Bool.xor_true _

@[simp] theorem magnitudeOf_fNeg (x : F64) : magnitudeOf (fNeg x) = magnitudeOf x := by
  rw [magnitudeOf, magnitudeOf, fNeg, BitVec.toNat_xor, Nat.xor_mod_two_pow]
  exact Nat.xor_zero _

@[simp] theorem isNaN_fNeg (x : F64) : isNaN (fNeg x) = isNaN x := by
  rw [Bool.eq_iff_iff, isNaN_iff, isNaN_iff, magnitudeOf_fNeg]

@[simp] theorem isInf_fNeg (x : F64) : isInf (fNeg x) = isInf x := by
  rw [Bool.eq_iff_iff, isInf_iff, isInf_iff, magnitudeOf_fNeg]

@[simp] theorem isFinite_fNeg (x : F64) : isFinite (fNeg x) = isFinite x := by
  rw [Bool.eq_iff_iff, isFinite_iff, isFinite_iff, magnitudeOf_fNeg]

@[simp] theorem signedUnitsOf_fNeg (x : F64) : signedUnitsOf (fNeg x) = -signedUnitsOf x := by
  simp only [signedUnitsOf, unitsOf_eq, signOf_fNeg, magnitudeOf_fNeg]
  cases signOf x <;> simp

/-! ### The exact value of a magnitude -/

/-- A significand `m` at the place `2^k` is the value of the magnitude `k * 2^52 + m`, also where `m` has
just been carried into the next binade. -/
theorem magnitudeUnits_of_significand (k m : Nat) (upper : m ≤ 2 ^ 53) (normal : k = 0 ∨ 2 ^ 52 ≤ m) :
    magnitudeUnits (k * 2 ^ 52 + m) = m * 2 ^ k := by
  unfold magnitudeUnits
  split
  next subnormal =>
    obtain rfl : k = 0 := by omega
    simp
  next =>
    obtain below | rfl := Nat.lt_or_eq_of_le upper
    · have fraction : 2 ^ 52 + (k * 2 ^ 52 + m) % 2 ^ 52 = m := by omega
      have place : (k * 2 ^ 52 + m) / 2 ^ 52 - 1 = k := by omega
      rw [fraction, place]
    · have fraction : 2 ^ 52 + (k * 2 ^ 52 + 2 ^ 53) % 2 ^ 52 = 2 ^ 52 := by omega
      have place : (k * 2 ^ 52 + 2 ^ 53) / 2 ^ 52 - 1 = k + 1 := by omega
      rw [fraction, place]
      ring

/-- The next magnitude is one place above. -/
theorem magnitudeUnits_strictMono : StrictMono magnitudeUnits := by
  refine strictMono_nat_of_lt_succ fun n => ?_
  obtain ⟨k, m, rfl, upper, normal⟩ :
      ∃ k m, n = k * 2 ^ 52 + m ∧ m < 2 ^ 53 ∧ (k = 0 ∨ 2 ^ 52 ≤ m) :=
    ⟨n / 2 ^ 52 - 1, n - (n / 2 ^ 52 - 1) * 2 ^ 52, by omega, by omega, by omega⟩
  rw [Nat.add_assoc, magnitudeUnits_of_significand k m (by omega) normal,
    magnitudeUnits_of_significand k (m + 1) upper (by omega)]
  exact Nat.mul_lt_mul_of_pos_right (Nat.lt_succ_self m) (Nat.two_pow_pos k)

/-- The largest finite magnitude is odd, and the midpoint between its value and that which the infinity's
magnitude would have lies half a place past it. -/
theorem exists_largest_magnitude : ∃ largest, infMagnitude = largest + 1 ∧ largest % 2 = 1 ∧
    magnitudeUnits largest + magnitudeUnits (largest + 1) = 2 * ((2 ^ 54 - 1) * 2 ^ 2044) := by
  have value := magnitudeUnits_of_significand 2045 (2 ^ 53 - 1) (by decide) (by decide)
  have past := magnitudeUnits_of_significand 2045 (2 ^ 53) (by decide) (by decide)
  have next : 2045 * 2 ^ 52 + (2 ^ 53 - 1) + 1 = 2045 * 2 ^ 52 + 2 ^ 53 := by decide
  refine ⟨2045 * 2 ^ 52 + (2 ^ 53 - 1), by decide, by decide, ?_⟩
  rw [next, value, past, pow_succ 2 2044]
  omega

/-! ### Rounding (R14) -/

/-- The significand that `roundMagnitude` cuts off: it has 53 bits, or fewer at the lowest place. -/
theorem significand_bounds (q : Nat) :
    q / 2 ^ (q.log2 - 52) < 2 ^ 53 ∧ (q.log2 - 52 = 0 ∨ 2 ^ 52 ≤ q / 2 ^ (q.log2 - 52)) := by
  have upper : q < 2 ^ (q.log2 + 1) := Nat.lt_log2_self
  by_cases small : q.log2 < 52
  · have place : q.log2 - 52 = 0 := by omega
    have bound : 2 ^ (q.log2 + 1) ≤ 2 ^ 53 := Nat.pow_le_pow_right (by decide) (by omega)
    rw [place, pow_zero, Nat.div_one]
    exact ⟨by omega, .inl rfl⟩
  · have nonzero : q ≠ 0 := by rintro rfl; exact small (by decide)
    constructor
    · rw [Nat.div_lt_iff_lt_mul (Nat.two_pow_pos _), ← pow_add]
      exact upper.trans_le (Nat.pow_le_pow_right (by decide) (by omega))
    · right
      rw [Nat.le_div_iff_mul_le (Nat.two_pow_pos _), ← pow_add, Nat.add_sub_cancel' (by omega)]
      exact Nat.log2_self_le nonzero

/-- `num / den` lies past the midpoint of the magnitudes `low` and `low + 1`, or on it with `low` odd. -/
def RoundsUp (num den low : Nat) : Prop :=
  (magnitudeUnits low + magnitudeUnits (low + 1)) * den < 2 * num ∨
  ((magnitudeUnits low + magnitudeUnits (low + 1)) * den = 2 * num ∧ low % 2 = 1)

/-- `roundMagnitude` chooses between the two neighbouring magnitudes that hold the exact quotient, and
cuts the choice off at the infinity. -/
theorem roundMagnitude_neighbours (num den : Nat) (pos : 0 < den) :
    ∃ low, magnitudeUnits low * den ≤ num ∧ num < magnitudeUnits (low + 1) * den ∧
      (RoundsUp num den low ∧ roundMagnitude num den = min (low + 1) infMagnitude ∨
        ¬ RoundsUp num den low ∧ roundMagnitude num den = min low infMagnitude) := by
  obtain ⟨upper, normal⟩ := significand_bounds (num / den)
  rw [Nat.div_div_eq_div_mul] at upper normal
  simp only [roundMagnitude]
  generalize (num / den).log2 - 52 = k at *
  have division := Nat.div_add_mod num (den * 2 ^ k)
  have rest := Nat.mod_lt num (Nat.mul_pos pos (Nat.two_pow_pos k))
  generalize num / (den * 2 ^ k) = m at *
  have lower : magnitudeUnits (k * 2 ^ 52 + m) * den = den * 2 ^ k * m := by
    rw [magnitudeUnits_of_significand k m (by omega) normal]; ring
  have raised : magnitudeUnits (k * 2 ^ 52 + m + 1) * den = den * 2 ^ k * m + den * 2 ^ k := by
    rw [Nat.add_assoc, magnitudeUnits_of_significand k (m + 1) upper (by omega)]; ring
  have up_iff : (2 * (num % (den * 2 ^ k)) > den * 2 ^ k ∨
      (2 * (num % (den * 2 ^ k)) = den * 2 ^ k ∧ m % 2 = 1)) ↔ RoundsUp num den (k * 2 ^ 52 + m) := by
    rw [RoundsUp, Nat.add_mul, lower, raised]
    omega
  refine ⟨k * 2 ^ 52 + m, by omega, by omega, ?_⟩
  by_cases up : RoundsUp num den (k * 2 ^ 52 + m)
  · exact .inl ⟨up, by rw [if_pos (up_iff.mpr up)]⟩
  · exact .inr ⟨up, by rw [if_neg (mt up_iff.mp up), Nat.add_zero]⟩

theorem roundMagnitude_le (num den : Nat) : roundMagnitude num den ≤ infMagnitude := Nat.min_le_right _ _

@[simp] theorem roundMagnitude_zero (den : Nat) : roundMagnitude 0 den = 0 := by
  simp [roundMagnitude]

/-- The magnitudes keep their order when they are scaled by a denominator. -/
theorem magnitudeUnits_mul_le (den : Nat) {m n : Nat} (le : m ≤ n) :
    magnitudeUnits m * den ≤ magnitudeUnits n * den :=
  Nat.mul_le_mul_right den (magnitudeUnits_strictMono.monotone le)

theorem magnitudeUnits_mul_lt {den : Nat} (pos : 0 < den) {m n : Nat} (lt : m < n) :
    magnitudeUnits m * den < magnitudeUnits n * den :=
  Nat.mul_lt_mul_of_pos_right (magnitudeUnits_strictMono lt) pos

/-- R14: the result is infinite exactly from the midpoint past the largest finite magnitude on; that
magnitude is odd, so the midpoint itself rounds up. -/
theorem roundMagnitude_eq_inf_iff (num den : Nat) (pos : 0 < den) :
    roundMagnitude num den = infMagnitude ↔ den * ((2 ^ 54 - 1) * 2 ^ 2044) ≤ num := by
  obtain ⟨low, below, above, choice⟩ := roundMagnitude_neighbours num den pos
  obtain ⟨largest, inf, odd, overflow⟩ := exists_largest_magnitude
  have midpoint : magnitudeUnits largest * den + magnitudeUnits (largest + 1) * den =
      2 * (den * ((2 ^ 54 - 1) * 2 ^ 2044)) := by
    rw [← Nat.add_mul, overflow, Nat.mul_assoc, Nat.mul_comm den]
  have order := magnitudeUnits_mul_le den (show largest ≤ largest + 1 by omega)
  clear overflow
  generalize den * ((2 ^ 54 - 1) * 2 ^ 2044) = half at *
  rw [inf] at choice ⊢
  obtain finite | rfl | past := Nat.lt_trichotomy low largest
  · have := magnitudeUnits_mul_le den (show low + 1 ≤ largest from finite)
    omega
  · rw [RoundsUp, Nat.add_mul, midpoint] at choice
    omega
  · have := magnitudeUnits_mul_le den (show largest + 1 ≤ low from past)
    omega

/-- R14: no magnitude lies nearer to the exact quotient than a finite result, and one as near is met only
with the result even. -/
theorem roundMagnitude_nearest (num den m : Nat) (pos : 0 < den)
    (finite : roundMagnitude num den < infMagnitude) (other : m ≠ roundMagnitude num den) :
    let near := ((magnitudeUnits (roundMagnitude num den) * den : Nat) - (num : Int)).natAbs
    let far := ((magnitudeUnits m * den : Nat) - (num : Int)).natAbs
    near < far ∨ (near = far ∧ roundMagnitude num den % 2 = 0) := by
  obtain ⟨low, below, above, ⟨up, result⟩ | ⟨down, result⟩⟩ := roundMagnitude_neighbours num den pos
  · obtain rounded : roundMagnitude num den = low + 1 := by omega
    rw [RoundsUp, Nat.add_mul] at up
    rw [rounded] at other ⊢
    obtain under | beyond : m ≤ low ∨ low + 1 < m := by omega
    · have := magnitudeUnits_mul_le den under
      omega
    · have := magnitudeUnits_mul_lt pos beyond
      omega
  · obtain rounded : roundMagnitude num den = low := by omega
    rw [RoundsUp, Nat.add_mul] at down
    rw [rounded] at other ⊢
    obtain under | beyond : m < low ∨ low + 1 ≤ m := by omega
    · have := magnitudeUnits_mul_lt pos under
      omega
    · have := magnitudeUnits_mul_le den beyond
      omega

theorem roundsToNearestEven : RoundsToNearestEven := fun num den pos =>
  ⟨roundMagnitude_eq_inf_iff num den pos,
    fun finite m _ other => roundMagnitude_nearest num den m pos finite other⟩

/-! ### What the operations answer with -/

theorem roundsTo_ofSignMagnitude_zero (neg : Bool) (den : Nat) :
    RoundsTo (ofSignMagnitude neg 0) neg 0 den :=
  ⟨signOf_ofSignMagnitude neg 0 (by decide),
    (magnitudeOf_ofSignMagnitude neg 0 (by decide)).trans (roundMagnitude_zero den).symm⟩

theorem roundsTo_roundUnits (neg : Bool) (num den : Nat) :
    RoundsTo (roundUnits neg num den) neg num den :=
  have bound : roundMagnitude num den < 2 ^ 63 := (roundMagnitude_le num den).trans_lt (by decide)
  ⟨signOf_ofSignMagnitude neg _ bound, magnitudeOf_ofSignMagnitude neg _ bound⟩

theorem isInfinity_infinity (neg : Bool) : IsInfinity (infinity neg) neg :=
  ⟨signOf_ofSignMagnitude neg _ (by decide),
    (isInf_iff _).mpr (magnitudeOf_ofSignMagnitude neg _ (by decide))⟩

theorem addFinite_roundsTo (a b : F64) :
    let sum := signedUnitsOf a + signedUnitsOf b
    RoundsTo (addFinite a b) (if sum = 0 then signOf a && signOf b else decide (sum < 0))
      sum.natAbs 1 := by
  unfold addFinite
  by_cases zero : signedUnitsOf a + signedUnitsOf b = 0
  · simpa [zero] using roundsTo_ofSignMagnitude_zero (signOf a && signOf b) 1
  · simpa [zero] using roundsTo_roundUnits _ _ 1

/-! ### The sum with `b`, of which the difference is the sum with `-b` -/

section Sum

variable (P : OpenParams) (op : FloatOp) (a b nanB : F64)

theorem addWith_finite (fa : isFinite a = true) (fb : isFinite b = true) :
    addWith P op a b nanB = addFinite a b := by
  simp [addWith, isNaN_of_isFinite, isInf_of_isFinite, fa, fb]

theorem addWith_inf_finite (ia : isInf a = true) (fb : isFinite b = true) :
    addWith P op a b nanB = a := by
  simp [addWith, isNaN_of_isInf, isNaN_of_isFinite, isInf_of_isFinite, ia, fb]

theorem addWith_finite_inf (fa : isFinite a = true) (ib : isInf b = true) :
    addWith P op a b nanB = b := by
  simp [addWith, isNaN_of_isInf, isNaN_of_isFinite, isInf_of_isFinite, fa, ib]

theorem addWith_like_infs (ia : isInf a = true) (ib : isInf b = true) (like : signOf a = signOf b) :
    addWith P op a b nanB = a := by
  simp [addWith, isNaN_of_isInf, ia, ib, like]

theorem isNaN_addWith_unlike_infs (ia : isInf a = true) (ib : isInf b = true)
    (unlike : signOf a ≠ signOf b) : isNaN (addWith P op a b nanB) = true := by
  simp [addWith, isNaN_freeNaN, ia, ib, unlike]

theorem isNaN_addWith_nan (nan : isNaN a = true ∨ isNaN b = true) :
    isNaN (addWith P op a b nanB) = true := by
  rcases nan with nan | nan <;> simp [addWith, isNaN_freeNaN, nan]

end Sum

/-! ### The product and the quotient -/

section Product

variable (P : OpenParams) (a b : F64)

theorem fMul_finite (fa : isFinite a = true) (fb : isFinite b = true) :
    fMul P a b = roundUnits (signOf a != signOf b) (unitsOf a * unitsOf b) unitsPerOne := by
  simp [fMul, isNaN_of_isFinite, isInf_of_isFinite, fa, fb]

/-- An infinity times a value that is neither a NaN nor a zero. -/
theorem fMul_inf (inf : isInf a = true ∨ isInf b = true) (ra : isNaN a = false) (rb : isNaN b = false)
    (za : isZero a = false) (zb : isZero b = false) : fMul P a b = infinity (signOf a != signOf b) := by
  rcases inf with inf | inf <;> simp [fMul, inf, ra, rb, za, zb]

theorem isNaN_fMul_inf_zero (zero : isInf a = true ∧ isZero b = true ∨ isZero a = true ∧ isInf b = true) :
    isNaN (fMul P a b) = true := by
  rcases zero with ⟨ha, hb⟩ | ⟨ha, hb⟩ <;> simp [fMul, isNaN_freeNaN, ha, hb]

theorem isNaN_fMul_nan (nan : isNaN a = true ∨ isNaN b = true) : isNaN (fMul P a b) = true := by
  rcases nan with nan | nan <;> simp [fMul, isNaN_freeNaN, nan]

theorem fDiv_finite (fa : isFinite a = true) (fb : isFinite b = true) (zb : isZero b = false) :
    fDiv P a b = roundUnits (signOf a != signOf b) (unitsOf a * unitsPerOne) (unitsOf b) := by
  simp [fDiv, isNaN_of_isFinite, isInf_of_isFinite, fa, fb, zb]

theorem fDiv_by_zero (fa : isFinite a = true) (fb : isFinite b = true) (za : isZero a = false)
    (zb : isZero b = true) : fDiv P a b = infinity (signOf a != signOf b) := by
  simp [fDiv, isNaN_of_isFinite, isInf_of_isFinite, fa, fb, za, zb]

theorem isNaN_fDiv_zeros (za : isZero a = true) (zb : isZero b = true) :
    isNaN (fDiv P a b) = true := by
  simp [fDiv, isNaN_freeNaN, za, zb]

theorem isNaN_fDiv_infs (ia : isInf a = true) (ib : isInf b = true) : isNaN (fDiv P a b) = true := by
  simp [fDiv, isNaN_freeNaN, ia, ib]

theorem fDiv_inf_finite (ia : isInf a = true) (fb : isFinite b = true) :
    fDiv P a b = infinity (signOf a != signOf b) := by
  simp [fDiv, isNaN_of_isInf, isZero_of_isInf, isNaN_of_isFinite, isInf_of_isFinite, ia, fb]

theorem fDiv_finite_inf (fa : isFinite a = true) (ib : isInf b = true) :
    fDiv P a b = ofSignMagnitude (signOf a != signOf b) 0 := by
  simp [fDiv, isNaN_of_isInf, isZero_of_isInf, isNaN_of_isFinite, isInf_of_isFinite, fa, ib]

theorem isNaN_fDiv_nan (nan : isNaN a = true ∨ isNaN b = true) : isNaN (fDiv P a b) = true := by
  rcases nan with nan | nan <;> simp [fDiv, isNaN_freeNaN, nan]

end Product

/-! ### The classes of operands (R14) -/

theorem finiteOperandsRoundOnce (P : OpenParams) (a b : F64) (fa : isFinite a = true)
    (fb : isFinite b = true) : FiniteOperandsRoundOnce P a b := by
  refine ⟨?sum, ?difference, ?product, ?quotient, ?byZero, ?zeros⟩
  case sum =>
    rw [fAdd, addWith_finite P .add a b b fa fb]
    exact addFinite_roundsTo a b
  case difference =>
    rw [fSub, addWith_finite P .sub a (fNeg b) b fa (by simpa using fb)]
    simpa [sub_eq_add_neg] using addFinite_roundsTo a (fNeg b)
  case product =>
    rw [fMul_finite P a b fa fb]
    exact roundsTo_roundUnits _ _ _
  case quotient =>
    intro zb
    rw [fDiv_finite P a b fa fb zb]
    exact roundsTo_roundUnits _ _ _
  case byZero =>
    intro zb za
    rw [fDiv_by_zero P a b fa fb za zb]
    exact isInfinity_infinity _
  case zeros => exact fun zb za => isNaN_fDiv_zeros P a b za zb

/-- Two infinities: the sum or the difference is a NaN, as their signs are unlike or like. -/
theorem infs_sum_difference (P : OpenParams) (a b : F64) (ia : isInf a = true) (ib : isInf b = true) :
    if signOf a != signOf b then isNaN (fAdd P a b) = true ∧ fSub P a b = a
      else fAdd P a b = a ∧ isNaN (fSub P a b) = true := by
  have inb : isInf (fNeg b) = true := by rwa [isInf_fNeg]
  by_cases like : signOf a = signOf b
  · rw [if_neg (by simp [like])]
    exact ⟨addWith_like_infs P .add a b b ia ib like,
      isNaN_addWith_unlike_infs P .sub a (fNeg b) b ia inb (by simp [like])⟩
  · rw [if_pos (by simp [like])]
    exact ⟨isNaN_addWith_unlike_infs P .add a b b ia ib like,
      addWith_like_infs P .sub a (fNeg b) b ia inb (by simpa [Bool.eq_not] using like)⟩

theorem infiniteOperands (P : OpenParams) (a b : F64) : InfiniteOperands P a b := by
  refine ⟨fun ia ib => ⟨infs_sum_difference P a b ia ib, ?infsProduct, isNaN_fDiv_infs P a b ia ib⟩,
    fun ia fb => ⟨addWith_inf_finite P .add a b b ia fb,
      addWith_inf_finite P .sub a (fNeg b) b ia (by rwa [isFinite_fNeg]), ?infProduct, ?infQuotient⟩,
    fun fa ib => ⟨addWith_finite_inf P .add a b b fa ib, ?byInfDifference, ?byInfProduct,
      ?byInfQuotient⟩⟩
  case infsProduct =>
    rw [fMul_inf P a b (.inl ia) (isNaN_of_isInf a ia) (isNaN_of_isInf b ib) (isZero_of_isInf a ia)
      (isZero_of_isInf b ib)]
    exact isInfinity_infinity _
  case infProduct =>
    split
    next zb => exact isNaN_fMul_inf_zero P a b (.inl ⟨ia, zb⟩)
    next zb =>
      rw [fMul_inf P a b (.inl ia) (isNaN_of_isInf a ia) (isNaN_of_isFinite b fb) (isZero_of_isInf a ia)
        (Bool.eq_false_iff.mpr zb)]
      exact isInfinity_infinity _
  case infQuotient =>
    rw [fDiv_inf_finite P a b ia fb]
    exact isInfinity_infinity _
  case byInfDifference =>
    have inb : isInf (fNeg b) = true := by rwa [isInf_fNeg]
    rw [fSub, addWith_finite_inf P .sub a (fNeg b) b fa inb]
    exact ⟨signOf_fNeg b, inb⟩
  case byInfProduct =>
    split
    next za => exact isNaN_fMul_inf_zero P a b (.inr ⟨za, ib⟩)
    next za =>
      rw [fMul_inf P a b (.inr ib) (isNaN_of_isFinite a fa) (isNaN_of_isInf b ib)
        (Bool.eq_false_iff.mpr za) (isZero_of_isInf b ib)]
      exact isInfinity_infinity _
  case byInfQuotient =>
    rw [fDiv_finite_inf P a b fa ib]
    exact roundsTo_ofSignMagnitude_zero _ 1

/-- Settles O60: the rounding is the choice between two neighbouring magnitudes, and the operations answer
class by class of their operands. -/
theorem arithmeticRoundsExactResult : Obligations.ArithmeticRoundsExactResult := by
  unfold Obligations.ArithmeticRoundsExactResult
  refine ⟨roundsToNearestEven, fun a _ => unitsOf_eq a, fun P a b => ⟨?_, ?_, fun nan => ?_⟩⟩
  · exact finiteOperandsRoundOnce P a b
  · exact infiniteOperands P a b
  · exact ⟨isNaN_addWith_nan P .add a b b nan,
      isNaN_addWith_nan P .sub a (fNeg b) b (by rwa [isNaN_fNeg]),
      isNaN_fMul_nan P a b nan, isNaN_fDiv_nan P a b nan⟩

end Sys2Proof.Machine
end

/-! PROOFS. The topology functions of R39 and R213: `REACH` as the operators with a path to a carrier,
`EVAL_ORDER` as the greedy order with modulators first, and the deletions of the cycle test. -/

namespace Sys2Proof.Machine

open Sys2Proof Relation

/-! ### `REACH` (R39) -/

theorem inSet_foldl_modSet (pr : Preset) (ops : List Op) (set : OpSet) (m : Op) :
    inSet (ops.foldl (fun acc o => acc ||| modSet pr o) set) m = true ↔
      inSet set m = true ∨ ∃ o ∈ ops, Edge pr.mods m o := by
  induction ops generalizing set with
  | nil => simp
  | cons o rest ih =>
    rw [List.foldl_cons, ih, inSet_or, Bool.or_eq_true, or_assoc]
    simp [Edge, hasEdge, modSet]

theorem inSet_reachRound (pr : Preset) (set : OpSet) (m : Op) :
    inSet (reachRound pr set) m = true ↔
      inSet set m = true ∨ ∃ o, inSet set o = true ∧ Edge pr.mods m o := by
  rw [reachRound, inSet_foldl_modSet]
  simp [mem_members]

/-- Rounds may be taken at the end as well as at the beginning. -/
theorem reachRounds_succ (pr : Preset) (n : Nat) (set : OpSet) :
    reachRounds pr (n + 1) set = reachRound pr (reachRounds pr n set) := by
  induction n generalizing set with
  | zero => rfl
  | succ n ih => exact ih (reachRound pr set)

theorem inSet_reachRounds_mono (pr : Preset) (set : OpSet) (o : Op) {m n : Nat} (le : m ≤ n)
    (mem : inSet (reachRounds pr m set) o = true) : inSet (reachRounds pr n set) o = true := by
  induction n, le using Nat.le_induction with
  | base => exact mem
  | succ n _ ih =>
    rw [reachRounds_succ]
    exact (inSet_reachRound pr _ o).mpr (.inl ih)

/-- Every round adds only operators with a path to the set the rounds begin with. -/
theorem path_of_inSet_reachRounds (pr : Preset) (set : OpSet) (n : Nat) (o : Op)
    (mem : inSet (reachRounds pr n set) o = true) :
    ∃ c, inSet set c = true ∧ ReflTransGen (Edge pr.mods) o c := by
  induction n generalizing o with
  | zero => exact ⟨o, mem, .refl⟩
  | succ n ih =>
    rw [reachRounds_succ] at mem
    obtain already | ⟨target, target_mem, edge⟩ := (inSet_reachRound pr _ o).mp mem
    · exact ih o already
    · obtain ⟨c, carrier, path⟩ := ih target target_mem
      exact ⟨c, carrier, path.head edge⟩

/-- A set of operators has at most as many members as there are operators. -/
theorem length_members_le (set : OpSet) : (members set).length ≤ maxOps := by
  have := (nodup_members set).length_le_card
  simpa using this

theorem members_sublist {a b : OpSet} (sub : ∀ o, inSet a o = true → inSet b o = true) :
    (members a).Sublist (members b) := by
  unfold members
  exact List.monotone_filter_right _ sub

/-- A set with no more members than one that it includes is that set. -/
theorem eq_of_length_members {a b : OpSet} (sub : ∀ o, inSet a o = true → inSet b o = true)
    (same : (members a).length = (members b).length) : a = b := by
  have eq := (members_sublist sub).eq_of_length same
  apply opSet_ext
  intro o
  rw [Bool.eq_iff_iff, ← mem_members, ← mem_members, eq]

theorem length_members_lt {a b : OpSet} (sub : ∀ o, inSet a o = true → inSet b o = true) (o : Op)
    (gone : inSet a o = false) (mem : inSet b o = true) : (members a).length < (members b).length := by
  refine lt_of_le_of_ne (members_sublist sub).length_le fun same => ?_
  rw [eq_of_length_members sub same, mem] at gone
  cases gone

/-- How many operators the set of the closure has after `n` rounds from the carriers. -/
def reachSize (pr : Preset) (n : Nat) : Nat := (members (reachRounds pr n pr.carriers)).length

theorem reachSize_mono (pr : Preset) : Monotone (reachSize pr) := fun _ _ le =>
  (members_sublist fun o => inSet_reachRounds_mono pr pr.carriers o le).length_le

/-- A round that adds no operator leaves the set as it is. -/
theorem reachRounds_fixed (pr : Preset) (n : Nat) (same : reachSize pr n = reachSize pr (n + 1)) :
    reachRounds pr (n + 1) pr.carriers = reachRounds pr n pr.carriers :=
  (eq_of_length_members (fun o => inSet_reachRounds_mono pr pr.carriers o (Nat.le_succ n)) same).symm

/-- 36 rounds are enough: one more adds no operator, since each round that is not the last adds one. -/
theorem reachRound_reach (pr : Preset) : reachRound pr (reach pr) = reach pr := by
  have stays (n : Nat) (same : reachSize pr n = reachSize pr (n + 1)) :
      reachSize pr (n + 1) = reachSize pr (n + 2) := by
    have fixed := reachRounds_fixed pr n same
    rw [reachSize, reachSize, reachRounds_succ pr (n + 1), fixed, ← reachRounds_succ, fixed]
  have last : reachSize pr (maxOps + 1) = reachSize pr maxOps :=
    Nat.stabilises_of_monotone (reachSize_mono pr) (fun _ => length_members_le _) stays (Nat.le_succ _)
  rw [reach, ← reachRounds_succ]
  exact reachRounds_fixed pr maxOps last.symm

theorem inSet_reach_of_carrier (pr : Preset) (c : Op) (carrier : inSet pr.carriers c = true) :
    inSet (reach pr) c = true :=
  inSet_reachRounds_mono pr pr.carriers c (Nat.zero_le maxOps) carrier

/-- `REACH` holds the modulators of its members. -/
theorem inSet_reach_of_edge (pr : Preset) {m o : Op} (edge : Edge pr.mods m o)
    (mem : inSet (reach pr) o = true) : inSet (reach pr) m = true := by
  rw [← reachRound_reach]
  exact (inSet_reachRound pr _ m).mpr (.inr ⟨o, mem, edge⟩)

/-- Settles O19: 36 rounds close the carriers under modulators, and every round goes back along one edge. -/
theorem reachIsPathsToCarriers : Obligations.ReachIsPathsToCarriers := by
  unfold Obligations.ReachIsPathsToCarriers
  intro pr o
  constructor
  · exact path_of_inSet_reachRounds pr pr.carriers maxOps o
  · rintro ⟨c, carrier, path⟩
    induction path using ReflTransGen.head_induction_on with
    | refl => exact inSet_reach_of_carrier pr c carrier
    | head edge _ ih => exact inSet_reach_of_edge pr edge ih

/-! ### `EVAL_ORDER` (R39) -/

/-- The operators appended so far: those of `done`, and then those of a list. -/
def appended (done : OpSet) (ops : List Op) : OpSet := ops.foldl (fun acc o => acc ||| opBit o) done

theorem inSet_appended (done : OpSet) (ops : List Op) (o : Op) :
    inSet (appended done ops) o = true ↔ inSet done o = true ∨ o ∈ ops := by
  induction ops generalizing done with
  | nil => simp [appended]
  | cons p rest ih =>
    rw [appended, List.foldl_cons, ← appended, ih, inSet_or, inSet_opBit]
    simp [or_assoc]

/-- An operator may come next when it is in the set, has not come, and all its modulators have. -/
theorem ready_iff (pr : Preset) (set done : OpSet) (o : Op) :
    ready pr set done o = true ↔ inSet set o = true ∧ inSet done o = false ∧
      ∀ m, Edge pr.mods m o → inSet done m = true := by
  have modulators : modSet pr o &&& ~~~done = 0 ↔ ∀ m, Edge pr.mods m o → inSet done m = true := by
    constructor
    · intro empty m edge
      have absent : inSet (modSet pr o &&& ~~~done) m = false := by rw [empty, inSet_zero]
      rw [inSet_and_not] at absent
      simpa [show inSet (modSet pr o) m = true from edge] using absent
    · intro come
      apply opSet_ext
      intro m
      rw [inSet_and_not, inSet_zero]
      cases edge : inSet (modSet pr o) m
      · rfl
      · simp [come m edge]
  simp only [ready, Bool.and_eq_true, Bool.not_eq_true', decide_eq_true_eq, modulators, and_assoc]

/-- The operator appended next is the largest that may come. -/
theorem nextReady_eq_some (pr : Preset) (set done : OpSet) (o : Op)
    (next : nextReady pr set done = some o) :
    ready pr set done o = true ∧ ∀ p, o < p → ready pr set done p = false := by
  obtain ⟨is_ready, before, after, split, none_before⟩ := List.find?_eq_some_iff_append.mp next
  refine ⟨is_ready, fun p larger => ?_⟩
  have descending : (List.finRange maxOps).reverse.Pairwise (· > ·) :=
    List.pairwise_reverse.mpr (List.pairwise_lt_finRange _)
  rw [split] at descending
  have mem : p ∈ before ++ o :: after := split ▸ List.mem_reverse.mpr (List.mem_finRange p)
  have not_after : p ∉ o :: after := by
    rintro (_ | ⟨_, later⟩)
    · exact lt_irrefl _ larger
    · have := List.rel_of_pairwise_cons (List.pairwise_append.mp descending).2.1 later
      exact lt_asymm this larger
  simpa using none_before p ((List.mem_append.mp mem).resolve_right not_after)

theorem nextReady_eq_none (pr : Preset) (set done : OpSet) :
    nextReady pr set done = none ↔ ∀ o, ready pr set done o = false := by
  simp [nextReady, List.find?_eq_none]

/-- Every appended operator was the next one when those before it had been appended. -/
theorem nextReady_of_evalOrderFrom (pr : Preset) (set : OpSet) (n : Nat) (done : OpSet)
    (before after : List Op) (o : Op) (order : evalOrderFrom pr set n done = before ++ o :: after) :
    nextReady pr set (appended done before) = some o := by
  induction n generalizing done before with
  | zero => simp [evalOrderFrom] at order
  | succ n ih =>
    rw [evalOrderFrom] at order
    split at order
    · simp at order
    · rename_i p next
      cases before with
      | nil =>
        obtain ⟨rfl, -⟩ := List.cons.inj order
        exact next
      | cons q rest =>
        obtain ⟨rfl, tail⟩ := List.cons.inj order
        exact ih _ rest tail

/-- The facts of R39 about an operator of `EVAL_ORDER`: it is in `REACH` and has not come before, its
modulators have, and no larger operator might have come instead. -/
theorem evalOrder_split (pr : Preset) (before after : List Op) (o : Op)
    (order : evalOrder pr = before ++ o :: after) :
    inSet (reach pr) o = true ∧ o ∉ before ∧ (∀ m, Edge pr.mods m o → m ∈ before) ∧
      ∀ p, o < p → inSet (reach pr) p = true → p ∉ before → ∃ m, Edge pr.mods m p ∧ m ∉ before := by
  have come (p : Op) : inSet (appended 0 before) p = true ↔ p ∈ before := by
    rw [inSet_appended, inSet_zero]
    simp
  have not_come (p : Op) : inSet (appended 0 before) p = false ↔ p ∉ before := by
    rw [← come p, Bool.not_eq_true]
  obtain ⟨is_ready, largest⟩ := nextReady_eq_some _ _ _ _
    (nextReady_of_evalOrderFrom pr (reach pr) maxOps 0 before after o order)
  obtain ⟨reached, fresh, modulators⟩ := (ready_iff _ _ _ _).mp is_ready
  refine ⟨reached, (not_come o).mp fresh, fun m edge => (come m).mp (modulators m edge), ?_⟩
  intro p larger p_reached p_fresh
  by_contra none
  push Not at none
  have p_ready := (ready_iff pr (reach pr) _ p).mpr
    ⟨p_reached, (not_come p).mpr p_fresh, fun m edge => (come m).mpr (none m edge)⟩
  rw [largest p larger] at p_ready
  cases p_ready

theorem inSet_reach_of_mem_evalOrder (pr : Preset) (o : Op) (mem : o ∈ evalOrder pr) :
    inSet (reach pr) o = true := by
  obtain ⟨before, after, order⟩ := List.append_of_mem mem
  exact (evalOrder_split pr before after o order).1

/-- A list no element of which has come before is free of repetitions. -/
theorem nodup_of_split {α : Type*} (l : List α)
    (fresh : ∀ before after x, l = before ++ x :: after → x ∉ before) : l.Nodup := by
  induction l using List.reverseRecOn with
  | nil => exact List.nodup_nil
  | append_singleton l x ih =>
    refine List.nodup_append.mpr ⟨ih fun before after y split => ?_, List.nodup_singleton x, ?_⟩
    · exact fresh before (after ++ [x]) y (by simp [split])
    · rintro a mem b last rfl
      exact fresh l [] x rfl (List.mem_singleton.mp last ▸ mem)

theorem nodup_evalOrder (pr : Preset) : (evalOrder pr).Nodup :=
  nodup_of_split _ fun before after o order => (evalOrder_split pr before after o order).2.1

/-- Without a cycle, as long as a member of `REACH` has not come, one may come next: one that no other of
those modulates. -/
theorem exists_ready (pr : Preset) (acyclic : ¬ Cyclic pr.mods) (done : OpSet) (o : Op)
    (reached : inSet (reach pr) o = true) (fresh : inSet done o = false) :
    ∃ p, ready pr (reach pr) done p = true := by
  have : IsTrans Op (TransGen (Edge pr.mods)) := ⟨fun _ _ _ => TransGen.trans⟩
  have : Std.Irrefl (TransGen (Edge pr.mods)) := ⟨fun p path => acyclic ⟨p, path⟩⟩
  have wf := Finite.wellFounded_of_trans_of_irrefl (TransGen (Edge pr.mods))
  obtain ⟨p, ⟨p_reached, p_fresh⟩, first⟩ :=
    wf.has_min {p | inSet (reach pr) p = true ∧ inSet done p = false} ⟨o, reached, fresh⟩
  refine ⟨p, (ready_iff _ _ _ _).mpr ⟨p_reached, p_fresh, fun m edge => ?_⟩⟩
  by_contra m_fresh
  exact first m ⟨inSet_reach_of_edge pr edge p_reached, by simpa using m_fresh⟩ (.single edge)

/-- Without a cycle, `n` more rounds append every member of `REACH` when at most `n` are left. -/
theorem mem_evalOrderFrom (pr : Preset) (acyclic : ¬ Cyclic pr.mods) (n : Nat) (done : OpSet)
    (enough : (members (reach pr &&& ~~~done)).length ≤ n) (o : Op)
    (reached : inSet (reach pr) o = true) (fresh : inSet done o = false) :
    o ∈ evalOrderFrom pr (reach pr) n done := by
  have left : o ∈ members (reach pr &&& ~~~done) := by simp [mem_members, inSet_and_not, reached, fresh]
  induction n generalizing done with
  | zero => exact absurd (List.length_pos_of_mem left) (by omega)
  | succ n ih =>
    obtain ⟨p, p_ready⟩ := exists_ready pr acyclic done o reached fresh
    rw [evalOrderFrom]
    split
    · rename_i stuck
      rw [(nextReady_eq_none _ _ _).mp stuck p] at p_ready
      cases p_ready
    · rename_i q next
      obtain ⟨q_reached, q_fresh, -⟩ := (ready_iff _ _ _ _).mp (nextReady_eq_some _ _ _ _ next).1
      by_cases same : o = q
      · simp [same]
      · have still_fresh : inSet (done ||| opBit q) o = false := by
          simp [inSet_or, inSet_opBit, fresh, same]
        refine List.mem_cons_of_mem q (ih _ ?_ still_fresh ?_)
        · refine Nat.le_of_lt_succ (lt_of_lt_of_le (length_members_lt ?_ q ?_ ?_) enough)
          · intro p
            simp only [inSet_and_not, inSet_or, Bool.not_or, Bool.and_eq_true]
            exact fun ⟨mem, old, _⟩ => ⟨mem, old⟩
          · simp [inSet_and_not, inSet_or, inSet_opBit]
          · simp [inSet_and_not, q_reached, q_fresh]
        · simp [mem_members, inSet_and_not, reached, still_fresh]

theorem mem_evalOrder_iff (pr : Preset) (acyclic : ¬ Cyclic pr.mods) (o : Op) :
    o ∈ evalOrder pr ↔ inSet (reach pr) o = true :=
  ⟨inSet_reach_of_mem_evalOrder pr o, fun reached =>
    mem_evalOrderFrom pr acyclic maxOps 0 (length_members_le _) o reached (inSet_zero o)⟩

/-- Settles O21: every operator of the order was the largest that might come next, and without a cycle some
operator may come next until `REACH` is exhausted. -/
theorem evalOrderListsReachModulatorsFirst : Obligations.EvalOrderListsReachModulatorsFirst := by
  unfold Obligations.EvalOrderListsReachModulatorsFirst
  intro pr acyclic
  refine ⟨nodup_evalOrder pr, mem_evalOrder_iff pr acyclic, ?modulators, ?largest⟩
  case modulators =>
    intro before after o m order edge
    obtain ⟨-, -, modulators, -⟩ := evalOrder_split pr before after o order
    exact modulators m edge
  case largest =>
    intro before after o later order mem larger
    obtain ⟨-, -, -, largest⟩ := evalOrder_split pr before after o order
    have reached : inSet (reach pr) later = true :=
      inSet_reach_of_mem_evalOrder pr later (by simp [order, mem])
    have fresh : later ∉ before := fun come =>
      (List.nodup_append.mp (order ▸ nodup_evalOrder pr)).2.2 later come later (by simp [mem]) rfl
    exact largest later larger reached fresh

/-! ### The deletions of the cycle test (R213) -/

theorem inSet_foldl_kept (drop : Op → Prop) [DecidablePred drop] (ops : List Op) (kept : OpSet) (o : Op) :
    inSet (ops.foldl (fun acc p => if drop p then acc else acc ||| opBit p) kept) o = true ↔
      inSet kept o = true ∨ o ∈ ops ∧ ¬ drop o := by
  induction ops generalizing kept with
  | nil => simp
  | cons p rest ih =>
    rw [List.foldl_cons, ih]
    by_cases same : o = p
    · subst same
      by_cases dropped : drop o <;> simp [inSet_or, inSet_opBit, dropped]
    · split <;> simp [inSet_or, inSet_opBit, same]

/-- A round of deletions keeps the operators that another one left modulates. -/
theorem inSet_pruneRound (mods : Vector OpSet maxOps) (left : OpSet) (o : Op) :
    inSet (pruneRound mods left) o = true ↔
      inSet left o = true ∧ ∃ m, Edge mods m o ∧ inSet left m = true := by
  have modulated : mods[o] &&& left ≠ 0 ↔ ∃ m, Edge mods m o ∧ inSet left m = true := by
    rw [← not_iff_not, not_not]
    constructor
    · rintro none ⟨m, edge, mem⟩
      have absent : inSet (mods[o] &&& left) m = true := by
        simpa [inSet] using ⟨edge, mem⟩
      rw [none, inSet_zero] at absent
      cases absent
    · intro none
      apply opSet_ext
      intro m
      rw [inSet_zero, Bool.eq_false_iff]
      intro both
      exact none ⟨m, by simpa [inSet, Edge, hasEdge] using both⟩
  rw [pruneRound, inSet_foldl_kept, inSet_zero, mem_members, ← ne_eq, modulated]
  simp

/-- Operators each of which another of them modulates are never deleted. -/
theorem inSet_pruneRounds (mods : Vector OpSet maxOps) (kept : Op → Prop)
    (modulated : ∀ o, kept o → ∃ m, Edge mods m o ∧ kept m) (n : Nat) (left : OpSet)
    (sub : ∀ o, kept o → inSet left o = true) (o : Op) (mem : kept o) :
    inSet (pruneRounds mods n left) o = true := by
  induction n generalizing left with
  | zero => exact sub o mem
  | succ n ih =>
    refine ih _ fun p p_kept => ?_
    obtain ⟨m, edge, m_kept⟩ := modulated p p_kept
    exact (inSet_pruneRound mods left p).mpr ⟨sub p p_kept, m, edge, sub m m_kept⟩

/-- The cycle test misses no cycle: the operators on cycles modulate one another and stay. -/
theorem not_cyclic_of_hasCycle (mods : Vector OpSet maxOps) (passed : hasCycle mods = false) :
    ¬ Cyclic mods := by
  rintro ⟨o, path⟩
  have modulated (p : Op) (cycle : TransGen (Edge mods) p p) :
      ∃ m, Edge mods m p ∧ TransGen (Edge mods) m m := by
    obtain ⟨m, there, edge⟩ := TransGen.tail'_iff.mp cycle
    exact ⟨m, edge, TransGen.head' edge there⟩
  have stays : inSet (pruneRounds mods maxOps (BitVec.allOnes maxOps)) o = true :=
    inSet_pruneRounds mods (fun p => TransGen (Edge mods) p p) modulated maxOps _
      (fun p _ => by simp [inSet]) o path
  have empty : pruneRounds mods maxOps (BitVec.allOnes maxOps) = 0 := by simpa [hasCycle] using passed
  rw [empty, inSet_zero] at stays
  cases stays

end Sys2Proof.Machine

/-! PROOFS. Everything a command can do (R60, R220): answer in the state as it is, or write what one of the
cases of `Writes` says and answer OK. -/

namespace Sys2Proof.Machine

open Sys2Proof

/-! ### What the commands write, store by store -/

/-- What a command writes to the staged preset `pr` (R201 to R208). -/
inductive StagedWrite (pr : Preset) : Instr → Preset → Prop
  | clear : StagedWrite pr .pclear Preset.reset
  | count {a n} (index : countOf a = some n) : StagedWrite pr (.pnops a) { pr with count := n }
  | carrier {a o} (index : opOf a = some o) :
      StagedWrite pr (.pcarr a) { pr with carriers := pr.carriers ||| opBit o }
  | feedback {a b src tgt} (source : opOf a = some src) (target : opOf b = some tgt) :
      StagedWrite pr (.pfbk a b)
        { pr with fbSource := BitVec.ofNat 6 src.val, fbTarget := BitVec.ofNat 6 tgt.val }
  | edge {a b m o} (modulator : opOf a = some m) (target : opOf b = some o) :
      StagedWrite pr (.pmod a b) (addEdge pr m o)
  | int {a sel x o f} (index : opOf a = some o) (field : intFieldOf sel = some f) :
      StagedWrite pr (.popi a sel x)
        { pr with records := pr.records.set o.val (storeClamped pr.records[o] f x.toInt) }
  | real {a sel x o f} (index : opOf a = some o) (field : realFieldOf sel = some f)
      (finite : isFinite x = true) :
      StagedWrite pr (.popf a sel x)
        { pr with records := pr.records.set o.val (storeReal pr.records[o] f x) }

/-- What a command writes to the chain (R171 to R175). -/
inductive ChainWrite (P : OpenParams) (chain : List Stage) : Instr → List Stage → Prop
  | addSum {a k} (index : fidOf P a = some k) :
      ChainWrite P chain (.chaddsum a) (chainAdd .sum k chain)
  | addLink {a k} (index : fidOf P a = some k) :
      ChainWrite P chain (.chaddlink a) (chainAdd .link k chain)
  | remove {a k} (index : fidOf P a = some k) :
      ChainWrite P chain (.chremove a) (chainRemove k chain)
  | swap {a b j k} (first : fidOf P a = some j) (second : fidOf P b = some k) :
      ChainWrite P chain (.chswap a b) (chainExchange j k chain)
  | clear : ChainWrite P chain .chclear []

/-- What a command writes to a filter unit `u` that it names as `k` (R186, R187). -/
inductive UnitWrite (P : OpenParams) (u : FilterUnit) : Instr → Fid → FilterUnit → Prop
  | configure {a b k kind} (index : fidOf P a = some k) (code : kindOf b = some kind) :
      UnitWrite P u (.fcfg a b) k (coefUpdate P (configureUnit kind u))
  | param {a sel x k p} (index : fidOf P a = some k) (code : filterParamOf sel = some p)
      (accepted : filterOperandOk p x = true) : UnitWrite P u (.fparam a sel x) k (storeParam P p x u)

/-- Every way in which a command writes the state `s`, with the checks it passes first. -/
inductive Writes (s : State) : Instr → State → Prop
  | tick : Writes s .tick
      { s with block := (tickBlock openParams s.block s.noise).2.1,
               noise := (tickBlock openParams s.block s.noise).2.2 }
  | keyon {a f v} (index : voiceOf a = some v) (finite : isFinite f = true)
      (loaded : s.block.active.count ≠ 0) :
      Writes s (.keyon a f) (setVoice v (startVoice openParams s.block.active f s.block.voices[v]) s)
  | keyoff {a v} (index : voiceOf a = some v) :
      Writes s (.keyoff a) (setVoice v (stopVoice openParams s.block.active s.block.voices[v]) s)
  | alloff : Writes s .alloff (setVoices (stopVoices openParams s.block.active s.block.voices) s)
  | gain {x} (finite : isFinite x = true) :
      Writes s (.setgain x) (setGain (fclamp x posZero f64Ten) s)
  | filter {i k u} (write : UnitWrite openParams s.block.filters[k] i k u) :
      Writes s i (setFilter k u s)
  | chain {i c} (write : ChainWrite openParams s.block.chain i c) : Writes s i (setChain c s)
  | stage {i pr} (write : StagedWrite s.block.staged i pr) : Writes s i (setStaged pr s)
  | load (valid : validate s.block.staged = .ok) :
      Writes s .loadpreset { s with block := commit s.block }

/-- How a command ends (R220): with a response in the state as it is, or with an OK in the state that it has
written. -/
inductive Answers (s : State) (i : Instr) : State → Prop
  | unchanged (code : Code) (data : BitVec 64) : Answers s i (respond code data s)
  | wrote {u : State} (data : BitVec 64) (write : Writes s i u) : Answers s i (respond .ok data u)

theorem Answers.refused {s : State} {i : Instr} (code : Code) : Answers s i (refuse code s) :=
  .unchanged code 0

theorem Answers.done {s : State} {i : Instr} {u : State} (write : Writes s i u) :
    Answers s i (respondOk u) := .wrote 0 write

/-! ### Every command answers -/

section Commands

variable (s : State)

theorem keyOn_answers (a : BitVec 8) (f : F64) : Answers s (.keyon a f) (keyOn openParams a f s) := by
  unfold keyOn
  split
  · exact .refused _
  · rename_i v index
    split
    · exact .refused _
    · rename_i finite
      split
      · exact .refused _
      · rename_i loaded
        exact .done (.keyon index (by simpa using finite) loaded)

theorem keyOff_answers (a : BitVec 8) : Answers s (.keyoff a) (keyOff openParams a s) := by
  unfold keyOff
  split
  · exact .refused _
  · rename_i v index
    exact .done (.keyoff index)

theorem gainCommand_answers (x : F64) : Answers s (.setgain x) (gainCommand x s) := by
  unfold gainCommand
  split
  · rename_i finite
    exact .done (.gain finite)
  · exact .refused _

theorem envRead_answers (a b : BitVec 8) : Answers s (.envrd a b) (envRead a b s) := by
  unfold envRead
  split
  · exact .unchanged _ _
  · exact .refused _

theorem envState_answers (a b : BitVec 8) : Answers s (.envst a b) (envState a b s) := by
  unfold envState
  split
  · exact .unchanged _ _
  · exact .refused _

theorem voiceActive_answers (a : BitVec 8) : Answers s (.vact a) (voiceActive a s) := by
  unfold voiceActive
  split
  · exact .refused _
  · exact .unchanged _ _

theorem filterConfig_answers (a b : BitVec 8) :
    Answers s (.fcfg a b) (filterConfig openParams a b s) := by
  unfold filterConfig
  split
  · rename_i k kind index code
    exact .done (.filter (.configure index code))
  · exact .refused _

theorem filterParam_answers (a sel : BitVec 8) (x : F64) :
    Answers s (.fparam a sel x) (filterParam openParams a sel x s) := by
  unfold filterParam
  split
  · rename_i k p index code
    split
    · rename_i accepted
      exact .done (.filter (.param index code accepted))
    · exact .refused _
  · exact .refused _

/-- `CHADDSUM` and `CHADDLINK`, given that the command `i` is the one of the mode. -/
theorem chainAddCommand_answers (mode : ChainMode) (a : BitVec 8) {i : Instr}
    (write : ∀ k, fidOf openParams a = some k →
      ChainWrite openParams s.block.chain i (chainAdd mode k s.block.chain)) :
    Answers s i (chainAddCommand openParams mode a s) := by
  unfold chainAddCommand
  split
  · rename_i k index
    exact .done (.chain (write k index))
  · exact .refused _

theorem chainRemoveCommand_answers (a : BitVec 8) :
    Answers s (.chremove a) (chainRemoveCommand openParams a s) := by
  unfold chainRemoveCommand
  split
  · rename_i k index
    exact .done (.chain (.remove index))
  · exact .refused _

theorem chainSwapCommand_answers (a b : BitVec 8) :
    Answers s (.chswap a b) (chainSwapCommand openParams a b s) := by
  unfold chainSwapCommand
  split
  · rename_i j k first second
    exact .done (.chain (.swap first second))
  · exact .refused _

theorem stageCount_answers (a : BitVec 8) : Answers s (.pnops a) (stageCount a s) := by
  unfold stageCount
  split
  · exact .refused _
  · rename_i n index
    exact .done (.stage (.count index))

theorem stageCarrier_answers (a : BitVec 8) : Answers s (.pcarr a) (stageCarrier a s) := by
  unfold stageCarrier
  split
  · exact .refused _
  · rename_i o index
    exact .done (.stage (.carrier index))

theorem stageFeedback_answers (a b : BitVec 8) : Answers s (.pfbk a b) (stageFeedback a b s) := by
  unfold stageFeedback
  split
  · rename_i src tgt source target
    exact .done (.stage (.feedback source target))
  · exact .refused _

theorem stageEdge_answers (a b : BitVec 8) : Answers s (.pmod a b) (stageEdge a b s) := by
  unfold stageEdge
  split
  · rename_i m o modulator target
    exact .done (.stage (.edge modulator target))
  · exact .refused _

theorem stageInt_answers (a sel : BitVec 8) (x : BitVec 64) :
    Answers s (.popi a sel x) (stageInt a sel x s) := by
  unfold stageInt
  split
  · rename_i o f index field
    exact .done (.stage (.int index field))
  · exact .refused _

theorem stageReal_answers (a sel : BitVec 8) (x : F64) :
    Answers s (.popf a sel x) (stageReal a sel x s) := by
  unfold stageReal
  split
  · rename_i o f index field
    split
    · rename_i finite
      exact .done (.stage (.real index field finite))
    · exact .refused _
  · exact .refused _

theorem loadPreset_answers : Answers s .loadpreset (loadPreset s) := by
  unfold loadPreset
  split
  · rename_i valid
    exact .done (.load valid)
  · exact .refused _

/-- R220: the one inversion of `exec` from which what holds after a command is read off. -/
theorem exec_answers (i : Instr) (t : State) (run : exec i s = .next t) : Answers s i t := by
  cases i with
  | tick => cases run; exact .wrote _ .tick
  | keyon a f => cases run; exact keyOn_answers s a f
  | keyoff a => cases run; exact keyOff_answers s a
  | alloff => cases run; exact .done .alloff
  | setgain x => cases run; exact gainCommand_answers s x
  | envrd a b => cases run; exact envRead_answers s a b
  | envst a b => cases run; exact envState_answers s a b
  | vact a => cases run; exact voiceActive_answers s a
  | fcfg a b => cases run; exact filterConfig_answers s a b
  | fparam a sel x => cases run; exact filterParam_answers s a sel x
  | chaddsum a => cases run; exact chainAddCommand_answers s .sum a fun _ => .addSum
  | chaddlink a => cases run; exact chainAddCommand_answers s .link a fun _ => .addLink
  | chremove a => cases run; exact chainRemoveCommand_answers s a
  | chswap a b => cases run; exact chainSwapCommand_answers s a b
  | chclear => cases run; exact .done (.chain .clear)
  | pclear => cases run; exact .done (.stage .clear)
  | pnops a => cases run; exact stageCount_answers s a
  | pcarr a => cases run; exact stageCarrier_answers s a
  | pfbk a b => cases run; exact stageFeedback_answers s a b
  | pmod a b => cases run; exact stageEdge_answers s a b
  | popi a sel x => cases run; exact stageInt_answers s a sel x
  | popf a sel x => cases run; exact stageReal_answers s a sel x
  | loadpreset => cases run; exact loadPreset_answers s

end Commands

/-- An invariant of the block's state that every write keeps is kept by every step (R69, R222). -/
theorem step_block_invariant (Inv : Block → Prop)
    (kept : ∀ (s : State) (i : Instr) (u : State), Writes s i u → Inv s.block → Inv u.block)
    (s t : State) (inv : Inv s.block) (run : step s = .next t) : Inv t.block := by
  obtain ⟨-, rfl⟩ | ⟨w, rest, -, ⟨i, -, executed⟩ | ⟨e, -, rfl⟩⟩ := step_cases s t run
  · exact inv
  · cases exec_answers _ i t executed with
    | unchanged => exact inv
    | wrote data write => exact (kept _ i _ write inv :)
  · exact inv

end Sys2Proof.Machine

/-! PROOFS. Vectors by element, the lengths of the envelope segments, and what a `TICK`, a note event and a
load do to one slot and to one voice (R104 to R110, R150 to R157, R212). -/

namespace Sys2Proof.Machine

open Sys2Proof

/-! ### Vectors at an index of their range -/

theorem getElem_set_fin {α : Type*} {n : Nat} (xs : Vector α n) (i j : Fin n) (x : α) :
    (xs.set i.val x)[j] = if j = i then x else xs[j] := by
  simp [Vector.getElem_set, Fin.ext_iff, eq_comm]

theorem getElem_ofFn_fin {α : Type*} {n : Nat} (f : Fin n → α) (i : Fin n) :
    (Vector.ofFn f)[i] = f i := by simp

theorem getElem_replicate_fin {α : Type*} {n : Nat} (x : α) (i : Fin n) :
    (Vector.replicate n x)[i] = x := by simp

/-- A property of every element of a vector is kept by writing an element that has it. -/
theorem forall_getElem_set {α : Type*} {n : Nat} {p : α → Prop} {xs : Vector α n} {i : Fin n} {x : α}
    (new : p x) (old : ∀ j : Fin n, p xs[j]) (j : Fin n) : p (xs.set i.val x)[j] := by
  rw [getElem_set_fin]
  split
  · exact new
  · exact old j

/-! ### `FS` as a binary64 value (R7, R15) and the lengths of the segments (R102) -/

theorem mul_two_pow_lt (n k m : Nat) (small : n < 2 ^ 64) (gap : 64 + k ≤ m) :
    n * 2 ^ k < 1 * ((2 ^ 54 - 1) * 2 ^ m) := calc
  n * 2 ^ k < 2 ^ 64 * 2 ^ k := Nat.mul_lt_mul_of_pos_right small (Nat.two_pow_pos k)
  _ = 2 ^ (64 + k) := (pow_add 2 64 k).symm
  _ ≤ 2 ^ m := Nat.pow_le_pow_right (by decide) gap
  _ ≤ 1 * ((2 ^ 54 - 1) * 2 ^ m) := by
    rw [one_mul]
    exact Nat.le_mul_of_pos_left _ (by decide)

theorem signOf_i2f (n : Nat) : signOf (i2f n) = false := (roundsTo_roundUnits false _ 1).1

theorem magnitudeOf_i2f (n : Nat) : magnitudeOf (i2f n) = roundMagnitude (n * unitsPerOne) 1 :=
  (roundsTo_roundUnits false _ 1).2

/-- A natural number of 64 bits is far below the end of the binary64 range. -/
theorem isFinite_i2f (n : Nat) (small : n < 2 ^ 64) : isFinite (i2f n) = true := by
  rw [isFinite_iff, magnitudeOf_i2f]
  refine lt_of_le_of_ne (roundMagnitude_le _ _) fun inf => ?_
  have overflow := (roundMagnitude_eq_inf_iff _ 1 one_pos).mp inf
  exact absurd overflow (Nat.not_le.mpr (mul_two_pow_lt n 1074 2044 small (by decide)))

theorem sampleRate_lt (P : OpenParams) : sampleRate P < 2 ^ 64 := by
  have := sampleRate_bounds P
  omega

/-- The product of R102 for a zero entry is a zero. -/
theorem floorNat_segProduct_zero (P : OpenParams) : floorNat (segProduct P posZero) = 0 := by
  have product : segProduct P posZero =
      ofSignMagnitude (signOf posZero != signOf (i2f (sampleRate P))) 0 := by
    rw [segProduct, fMul_finite P _ _ (by decide) (isFinite_i2f _ (sampleRate_lt P))]
    have zero : unitsOf posZero = 0 := by decide
    rw [zero, zero_mul, roundUnits, roundMagnitude_zero]
  have units : unitsOf (segProduct P posZero) = 0 := by
    rw [product, unitsOf_eq, magnitudeOf_ofSignMagnitude _ 0 (by decide)]
    rfl
  rw [floorNat, units, Nat.zero_div, ite_self]

theorem envLength_bounds (P : OpenParams) (r : OpRecord) (st : EnvState) :
    1 ≤ envLength P r st ∧ envLength P r st < 2 ^ 32 := by
  obtain ⟨i, configured⟩ | preIdle | resting := envLength_cases P r st
  · rw [configured]
    exact ⟨segSamples_pos P i, segSamples_lt P i (by rw [floorNat_segProduct_zero]; decide)⟩
  · rw [preIdle]
    exact preIdleSamples_bounds P
  · rw [resting]
    decide

/-! ### (I-f) of R40 on one slot -/

theorem slotOk_reset : SlotOk EnvSlot.reset :=
  ⟨by decide, by decide, by decide, fun _ => rfl, nofun⟩

theorem slotOk_envArm (P : OpenParams) (r : OpRecord) (st : EnvState) (e : EnvSlot)
    (timed : isTimed st = true) : SlotOk (envArm P r st e) where
  size_pos := (envLength_bounds P r st).1
  size_lt := (envLength_bounds P r st).2
  pos_lt := (envLength_bounds P r st).1
  idle_cold := fun idle => by rw [show st = .idle from idle] at timed; cases timed
  hold_flat := fun hold => by rw [show st = .hold from hold] at timed; cases timed

theorem slotOk_envHold (e : EnvSlot) : SlotOk (envHold e) :=
  { size_pos := le_refl 1
    size_lt := Nat.one_lt_two_pow (by decide)
    pos_lt := one_pos
    idle_cold := nofun
    hold_flat := fun _ => ⟨rfl, rfl, rfl⟩ }

theorem slotOk_envAdvance (P : OpenParams) (e : EnvSlot) (ok : SlotOk e) (timed : isTimed e.state = true)
    (within : e.pos + 1 < e.size) : SlotOk (envAdvance P e) where
  size_pos := ok.size_pos
  size_lt := ok.size_lt
  pos_lt := within
  idle_cold := fun idle => by rw [show e.state = .idle from idle] at timed; cases timed
  hold_flat := fun hold => by rw [show e.state = .hold from hold] at timed; cases timed

theorem slotOk_envNext (P : OpenParams) (r : OpRecord) (e : EnvSlot) (timed : isTimed e.state = true) :
    SlotOk (envNext P r e) := by
  obtain ⟨-, next⟩ | ⟨-, next⟩ | ⟨-, next⟩ | ⟨-, next⟩ | ⟨-, next⟩ | ⟨resting, -⟩ := envNext_cases P r e
  · rw [next]; exact slotOk_envArm P r .decay e rfl
  · rw [next]; exact slotOk_envArm P r .sustain e rfl
  · rw [next]; exact slotOk_envHold e
  · rw [next]; exact slotOk_envArm P r .preIdle e rfl
  · rw [next]; exact slotOk_reset
  · rw [timed] at resting; cases resting

theorem slotOk_envStep (P : OpenParams) (r : OpRecord) (e : EnvSlot) (ok : SlotOk e) :
    SlotOk (envStep P r e) := by
  obtain ⟨-, kept⟩ | ⟨timed, within, advanced⟩ | ⟨timed, -, entered⟩ := envStep_cases P r e
  · rwa [kept]
  · rw [advanced]; exact slotOk_envAdvance P e ok timed within
  · rw [entered]; exact slotOk_envNext P r (envAdvance P e) timed

theorem slotOk_envRelease (P : OpenParams) (r : OpRecord) (e : EnvSlot) (ok : SlotOk e) :
    SlotOk (envRelease P r e) := by
  obtain ⟨-, armed⟩ | ⟨-, kept⟩ := envRelease_cases P r e
  · rw [armed]; exact slotOk_envArm P r .release e rfl
  · rwa [kept]

/-- A release never silences a slot at once, and never wakes one (R109). -/
theorem envRelease_idle_iff (P : OpenParams) (r : OpRecord) (e : EnvSlot) :
    (envRelease P r e).state = .idle ↔ e.state = .idle := by
  obtain ⟨releasable, armed⟩ | ⟨-, kept⟩ := envRelease_cases P r e
  · rw [armed]
    refine ⟨nofun, fun idle => ?_⟩
    rw [idle] at releasable
    cases releasable
  · rw [kept]

/-! ### What the voice and block operations leave as it is -/

section Frame

variable (P : OpenParams)

@[simp] theorem stopVoice_active (pr : Preset) (vs : VoiceState) :
    (stopVoice P pr vs).active = vs.active := by rw [stopVoice]

@[simp] theorem stopVoice_elapsed (pr : Preset) (vs : VoiceState) :
    (stopVoice P pr vs).elapsed = vs.elapsed := by rw [stopVoice]

@[simp] theorem stopVoice_carrierActive (pr : Preset) (vs : VoiceState) :
    (stopVoice P pr vs).carrierActive = vs.carrierActive := by rw [stopVoice]

@[simp] theorem startVoice_carrierActive (pr : Preset) (f : F64) (vs : VoiceState) :
    (startVoice P pr f vs).carrierActive = vs.carrierActive := by rw [startVoice]

@[simp] theorem tickBlock_active (b : Block) (noise : NoiseInput) :
    (tickBlock P b noise).2.1.active = b.active := by rw [tickBlock]

@[simp] theorem tickBlock_staged (b : Block) (noise : NoiseInput) :
    (tickBlock P b noise).2.1.staged = b.staged := by rw [tickBlock]

@[simp] theorem tickBlock_gain (b : Block) (noise : NoiseInput) :
    (tickBlock P b noise).2.1.gain = b.gain := by rw [tickBlock]

@[simp] theorem tickBlock_chain (b : Block) (noise : NoiseInput) :
    (tickBlock P b noise).2.1.chain = b.chain := by rw [tickBlock]

end Frame

/-! ### `TICK` on one voice (R150, R152, R153) -/

/-- The slot of an operator after it has been evaluated (R139). -/
def stepSlot (P : OpenParams) (r : OpRecord) (slot : OpSlot) : OpSlot :=
  { slot with env := envStep P r slot.env }

theorem getElem_foldl_frame_ops (P : OpenParams) (pr : Preset) (t : BitVec 64) (order : List Op)
    (nodup : order.Nodup) (acc : TickAcc) (o : Op) :
    (order.foldl (frame P pr t) acc).ops[o] =
      if o ∈ order then stepSlot P pr.records[o] acc.ops[o] else acc.ops[o] := by
  induction order generalizing acc with
  | nil => simp
  | cons p rest ih =>
    obtain ⟨fresh, nodup⟩ := List.nodup_cons.mp nodup
    rw [List.foldl_cons, ih nodup, getElem_frame_ops]
    by_cases same : o = p
    · subst same
      rw [if_neg fresh, if_pos rfl, if_pos List.mem_cons_self]
      rfl
    · simp only [List.mem_cons, same, false_or, if_false]

theorem getElem_voiceSample_ops (P : OpenParams) (pr : Preset) (vs : VoiceState) (noise : NoiseInput)
    (o : Op) : (voiceSample P pr (evalOrder pr) vs noise).voice.ops[o] =
      if o ∈ evalOrder pr then stepSlot P pr.records[o] vs.ops[o] else vs.ops[o] :=
  getElem_foldl_frame_ops P pr vs.elapsed (evalOrder pr) (nodup_evalOrder pr) _ o

/-- The loop over distinct voices evaluates each active one of them once, with some noise input. -/
theorem getElem_foldl_mixVoice (P : OpenParams) (pr : Preset) (order : List Op) (ids : List Voice)
    (nodup : ids.Nodup) (acc : MixAcc) (v : Voice) : ∃ noise,
    (ids.foldl (mixVoice P pr order) acc).voices[v] =
      if v ∈ ids ∧ acc.voices[v].active = true then (voiceSample P pr order acc.voices[v] noise).voice
      else acc.voices[v] := by
  induction ids generalizing acc with
  | nil => exact ⟨acc.noise, by simp⟩
  | cons w rest ih =>
    obtain ⟨fresh, nodup⟩ := List.nodup_cons.mp nodup
    obtain ⟨noise, later⟩ := ih nodup (mixVoice P pr order acc w)
    have now : (mixVoice P pr order acc w).voices[v] =
        if v = w ∧ acc.voices[v].active = true then (voiceSample P pr order acc.voices[v] acc.noise).voice
        else acc.voices[v] := by
      unfold mixVoice
      by_cases active : acc.voices[w].active = true
      · rw [if_pos active, getElem_set_fin]
        by_cases same : v = w
        · subst same; simp only [true_and, active, if_true]
        · simp only [same, false_and, if_false]
      · rw [if_neg active, if_neg]
        rintro ⟨rfl, sounding⟩
        exact active sounding
    rw [List.foldl_cons, later]
    by_cases same : v = w
    · subst same
      refine ⟨acc.noise, ?_⟩
      rw [if_neg (fun h => fresh h.1), now]
      simp only [true_and, List.mem_cons_self]
    · refine ⟨noise, ?_⟩
      simp only [now, List.mem_cons, same, false_and, false_or, if_false]

/-- A voice after a `TICK`: an active one is evaluated, and `Deactivate` follows. -/
theorem getElem_tickBlock_voices (P : OpenParams) (b : Block) (noise : NoiseInput) (v : Voice) :
    ∃ noise', (tickBlock P b noise).2.1.voices[v] = deactivateVoice b.active.carriers
      (if b.voices[v].active = true
        then (voiceSample P b.active (evalOrder b.active) b.voices[v] noise').voice else b.voices[v]) := by
  obtain ⟨noise', mixed⟩ := getElem_foldl_mixVoice P b.active (evalOrder b.active)
    (List.finRange numVoices) (List.nodup_finRange _)
    { voices := b.voices, mix := posZero, noise := noise } v
  refine ⟨noise', ?_⟩
  simp only [List.mem_finRange, true_and] at mixed
  rw [← mixed]
  exact getElem_ofFn_fin _ v

theorem inSet_foldl_recordCarriers (ops : Vector OpSlot maxOps) (carriers : List Op) (old : OpSet)
    (c : Op) :
    inSet (carriers.foldl
      (fun acc c => if slotActive ops[c] then acc ||| opBit c else acc &&& ~~~opBit c) old) c =
      if c ∈ carriers then slotActive ops[c] else inSet old c := by
  induction carriers generalizing old with
  | nil => simp
  | cons d rest ih =>
    rw [List.foldl_cons, ih]
    by_cases same : c = d
    · subst same
      cases sounding : slotActive ops[c] <;> simp [inSet_or, inSet_and_not, inSet_opBit]
    · by_cases mem : c ∈ rest
      · simp only [mem, List.mem_cons, or_true, if_true]
      · simp only [mem, same, List.mem_cons, or_false, if_false]
        split <;> simp [inSet_or, inSet_and_not, inSet_opBit, same]

/-- The record of R152 holds of every carrier whether it sounds. -/
theorem inSet_recordCarriers (carriers : OpSet) (ops : Vector OpSlot maxOps) (old : OpSet) (c : Op)
    (carrier : inSet carriers c = true) :
    inSet (recordCarriers carriers ops old) c = slotActive ops[c] := by
  rw [recordCarriers, inSet_foldl_recordCarriers, if_pos ((mem_members _ _).mpr carrier)]

theorem deactivateVoice_active_iff (carriers : OpSet) (vs : VoiceState) :
    (deactivateVoice carriers vs).active = true ↔
      vs.active = true ∧ ∃ c, inSet carriers c = true ∧ inSet vs.carrierActive c = true := by
  simp [deactivateVoice, mem_members]

/-- `Commit` makes every voice cold (R212). -/
theorem commitVoice_eq_reset (vs : VoiceState) : commitVoice vs = VoiceState.reset := by
  have slots : (Vector.ofFn fun o => commitSlot vs.ops[o]) = Vector.replicate maxOps OpSlot.reset :=
    Vector.ext fun i bound => by simp [commitSlot, envReset, OpSlot.reset]
  rw [commitVoice, slots]
  rfl

end Sys2Proof.Machine

/-! PROOFS. The invariants (I-a) to (I-f) of R40: those of the active preset and those of one voice, what the
commands do to each, and that every step keeps them. -/

namespace Sys2Proof.Machine

open Sys2Proof

/-! ### The parts of `BlockInv` -/

/-- What R40 asks of the active preset alone: (I-b) where none is loaded, (I-c) where one is. -/
structure PresetInv (pr : Preset) : Prop where
  unloaded : pr.count = 0 → pr.carriers = 0 ∧ ∀ o : Op, modSet pr o = 0
  loaded_carrier : pr.count ≠ 0 → pr.carriers ≠ 0
  carrier_lt : ∀ c : Op, inSet pr.carriers c = true → c.val < pr.count.toNat
  edge_lt : ∀ m o : Op, Edge pr.mods m o → m.val < pr.count.toNat ∧ o.val < pr.count.toNat
  feedback_lt : pr.count ≠ 0 →
    pr.fbSource.toNat < pr.count.toNat ∧ pr.fbTarget.toNat < pr.count.toNat
  acyclic : ¬ Cyclic pr.mods

/-- What R40 asks of one voice under the active preset: (I-a), (I-e) and (I-f). -/
structure VoiceInv (pr : Preset) (vs : VoiceState) : Prop where
  active_iff : vs.active = true ↔
    ∃ c, inSet pr.carriers c = true ∧ vs.ops[c].env.state ≠ .idle
  unreached : ∀ o : Op, inSet (reach pr) o = false → vs.ops[o] = OpSlot.reset
  slots : ∀ o : Op, SlotOk vs.ops[o].env

/-- That no voice is active without a preset (I-b) follows from (I-a), for then there is no carrier. -/
theorem VoiceInv.silent_of_no_carrier {pr : Preset} {vs : VoiceState} (inv : VoiceInv pr vs)
    (none : pr.carriers = 0) : vs.active = false := by
  rw [Bool.eq_false_iff, Ne, inv.active_iff]
  rintro ⟨c, carrier, -⟩
  rw [none, inSet_zero] at carrier
  cases carrier

theorem blockInv_iff (b : Block) : BlockInv b ↔
    PresetInv b.active ∧ (∀ v : Voice, VoiceInv b.active b.voices[v]) ∧
      (b.chain.map Stage.fid).Nodup := by
  constructor
  · intro inv
    refine ⟨⟨fun unloaded => (inv.unloaded unloaded).2, inv.loaded_carrier, inv.carrier_lt, inv.edge_lt,
      inv.feedback_lt, inv.acyclic⟩, fun v => ⟨?_, inv.unreached v, inv.slots v⟩, inv.chain_nodup⟩
    exact inv.active_iff v
  · rintro ⟨preset, voices, nodup⟩
    exact
      { active_iff := fun v => (voices v).active_iff
        unloaded := fun unloaded => ⟨fun v =>
          (voices v).silent_of_no_carrier (preset.unloaded unloaded).1, preset.unloaded unloaded⟩
        loaded_carrier := preset.loaded_carrier
        carrier_lt := preset.carrier_lt
        edge_lt := preset.edge_lt
        feedback_lt := preset.feedback_lt
        acyclic := preset.acyclic
        chain_nodup := nodup
        unreached := fun v => (voices v).unreached
        slots := fun v => (voices v).slots }

/-! ### A preset that passed the checks of the load (R211) -/

/-- The code of a preset with no fault says that all six checks passed. -/
theorem validate_ok (pr : Preset) (valid : validate pr = .ok) :
    pr.count ≠ 0 ∧ pr.carriers ≠ 0 ∧ allBelow pr.carriers pr.count = true ∧ edgesBelow pr = true ∧
      (pr.fbSource.toNat < pr.count.toNat ∧ pr.fbTarget.toNat < pr.count.toNat) ∧
      hasCycle pr.mods = false := by
  unfold validate at valid
  split_ifs at valid with count carriers range edges feedback cycle
  simp only [Bool.not_eq_true', Bool.not_eq_false] at range edges cycle
  simp only [not_or, Nat.not_le] at feedback
  exact ⟨count, carriers, range, edges, feedback, by simpa using cycle⟩

theorem allBelow_iff (set : OpSet) (n : BitVec 6) :
    allBelow set n = true ↔ ∀ o, inSet set o = true → o.val < n.toNat := by
  simp [allBelow, mem_members]

theorem edge_lt_of_edgesBelow (pr : Preset) (below : edgesBelow pr = true) (m o : Op)
    (edge : Edge pr.mods m o) : m.val < pr.count.toNat ∧ o.val < pr.count.toNat := by
  unfold edgesBelow at below
  have column := List.all_eq_true.mp below o (List.mem_finRange o)
  have mem : inSet (modSet pr o) m = true := edge
  have some_edge : modSet pr o ≠ 0 := by
    rintro none
    rw [none, inSet_zero] at mem
    cases mem
  simp only [some_edge, decide_false, Bool.false_or, Bool.and_eq_true, decide_eq_true_eq] at column
  obtain ⟨target_lt, modulators_lt⟩ := column
  exact ⟨(allBelow_iff _ _).mp modulators_lt m mem, target_lt⟩

theorem presetInv_of_valid (pr : Preset) (valid : validate pr = .ok) : PresetInv pr := by
  obtain ⟨count, carriers, range, edges, feedback, cycle⟩ := validate_ok pr valid
  exact
    { unloaded := fun unloaded => absurd unloaded count
      loaded_carrier := fun _ => carriers
      carrier_lt := (allBelow_iff _ _).mp range
      edge_lt := edge_lt_of_edgesBelow pr edges
      feedback_lt := fun _ => feedback
      acyclic := not_cyclic_of_hasCycle pr.mods cycle }

/-! ### What the commands do to one voice -/

theorem voiceInv_reset (pr : Preset) : VoiceInv pr VoiceState.reset := by
  have slot (o : Op) : VoiceState.reset.ops[o] = OpSlot.reset := getElem_replicate_fin _ o
  refine ⟨⟨nofun, ?_⟩, fun o _ => slot o, fun o => ?_⟩
  · rintro ⟨c, -, sounding⟩
    exact absurd (congrArg (fun slot => slot.env.state) (slot c)) sounding
  · rw [slot]
    exact slotOk_reset

/-- R155: with a carrier, a started voice sounds. -/
theorem voiceInv_startVoice (P : OpenParams) (pr : Preset) (f : F64) (vs : VoiceState)
    (carriers : pr.carriers ≠ 0) (inv : VoiceInv pr vs) : VoiceInv pr (startVoice P pr f vs) := by
  have slot (o : Op) : (startVoice P pr f vs).ops[o] =
      if inSet (reach pr) o then startSlot P pr.records[o] f vs.ops[o] else vs.ops[o] :=
    getElem_mapReach pr (fun r slot => startSlot P r f slot) vs.ops o
  refine ⟨⟨fun _ => ?_, fun _ => rfl⟩, fun o outside => ?_, fun o => ?_⟩
  · obtain ⟨c, carrier⟩ : ∃ c, inSet pr.carriers c = true := by
      by_contra none
      exact carriers (opSet_ext _ _ fun o => by
        rw [inSet_zero, Bool.eq_false_iff]; exact fun mem => none ⟨o, mem⟩)
    refine ⟨c, carrier, ?_⟩
    rw [slot, if_pos (inSet_reach_of_carrier pr c carrier)]
    nofun
  · rw [slot, outside, if_neg Bool.false_ne_true]
    exact inv.unreached o outside
  · rw [slot]
    split
    · exact slotOk_envArm P pr.records[o] .attack _ rfl
    · exact inv.slots o

theorem voiceInv_stopVoice (P : OpenParams) (pr : Preset) (vs : VoiceState) (inv : VoiceInv pr vs) :
    VoiceInv pr (stopVoice P pr vs) := by
  have slot (o : Op) : (stopVoice P pr vs).ops[o] =
      if inSet (reach pr) o then stopSlot P pr.records[o] vs.ops[o] else vs.ops[o] :=
    getElem_mapReach pr (stopSlot P) vs.ops o
  have idle_iff (o : Op) : (stopVoice P pr vs).ops[o].env.state = .idle ↔ vs.ops[o].env.state = .idle := by
    rw [slot]
    split
    · exact envRelease_idle_iff P pr.records[o] _
    · rfl
  refine ⟨?_, fun o outside => ?_, fun o => ?_⟩
  · rw [stopVoice_active]
    exact inv.active_iff.trans
      (exists_congr fun c => and_congr_right fun _ => not_congr (idle_iff c).symm)
  · rw [slot, outside, if_neg Bool.false_ne_true]
    exact inv.unreached o outside
  · rw [slot]
    split
    · exact slotOk_envRelease P pr.records[o] _ (inv.slots o)
    · exact inv.slots o

/-- R152, R153: the voice stays active exactly while the record says that a carrier sounds. -/
theorem voiceInv_sampled (P : OpenParams) (pr : Preset) (vs : VoiceState) (noise : NoiseInput)
    (active : vs.active = true) (inv : VoiceInv pr vs) :
    VoiceInv pr (deactivateVoice pr.carriers (voiceSample P pr (evalOrder pr) vs noise).voice) := by
  have slot := getElem_voiceSample_ops P pr vs noise
  refine ⟨?_, fun o outside => ?_, fun o => ?_⟩
  · rw [deactivateVoice_active_iff]
    have recorded (c : Op) (carrier : inSet pr.carriers c = true) :
        inSet (voiceSample P pr (evalOrder pr) vs noise).voice.carrierActive c = true ↔
          (voiceSample P pr (evalOrder pr) vs noise).voice.ops[c].env.state ≠ .idle := by
      rw [← bne_iff_ne]
      exact (Bool.eq_iff_iff.mp (inSet_recordCarriers _ _ _ c carrier))
    constructor
    · rintro ⟨-, c, carrier, record⟩
      exact ⟨c, carrier, (recorded c carrier).mp record⟩
    · rintro ⟨c, carrier, sounding⟩
      exact ⟨active, c, carrier, (recorded c carrier).mpr sounding⟩
  · have unordered : o ∉ evalOrder pr := fun mem => by
      rw [inSet_reach_of_mem_evalOrder pr o mem] at outside
      cases outside
    exact (slot o).trans ((if_neg unordered).trans (inv.unreached o outside))
  · show SlotOk (voiceSample P pr (evalOrder pr) vs noise).voice.ops[o].env
    rw [slot]
    split
    · exact slotOk_envStep P pr.records[o] _ (inv.slots o)
    · exact inv.slots o

/-- An inactive voice is neither evaluated nor deactivated. -/
theorem deactivateVoice_of_inactive (carriers : OpSet) (vs : VoiceState) (inactive : vs.active = false) :
    deactivateVoice carriers vs = vs := by
  rw [deactivateVoice, inactive, Bool.false_and, ← inactive]

theorem voiceInv_tickBlock (P : OpenParams) (b : Block) (noise : NoiseInput) (v : Voice)
    (inv : VoiceInv b.active b.voices[v]) :
    VoiceInv b.active (tickBlock P b noise).2.1.voices[v] := by
  obtain ⟨noise', after⟩ := getElem_tickBlock_voices P b noise v
  rw [after]
  split
  · rename_i active
    exact voiceInv_sampled P b.active _ noise' active inv
  · rename_i inactive
    rwa [deactivateVoice_of_inactive _ _ (by simpa using inactive)]

/-! ### What the commands do to the chain -/

/-- (I-d): a unit is appended only where it is absent, and an exchange permutes the stages. -/
theorem nodup_of_chainWrite {P : OpenParams} {chain c : List Stage} {i : Instr}
    (write : ChainWrite P chain i c) (nodup : (chain.map Stage.fid).Nodup) :
    (c.map Stage.fid).Nodup := by
  have added (mode : ChainMode) (k : Fid) : ((chainAdd mode k chain).map Stage.fid).Nodup := by
    unfold chainAdd
    split
    · exact nodup
    · rename_i absent
      rw [List.map_append, List.map_singleton, ← List.concat_eq_append]
      refine nodup.concat fun mem => absent ?_
      obtain ⟨st, mem, same⟩ := List.mem_map.mp mem
      exact (inChain_iff chain k).mpr ⟨st, mem, same⟩
  cases write with
  | addSum => exact added .sum _
  | addLink => exact added .link _
  | remove => exact (List.filter_sublist.map Stage.fid).nodup nodup
  | swap => exact ((chainExchange_perm _ _ chain).map Stage.fid).nodup_iff.mpr nodup
  | clear => exact List.nodup_nil

/-! ### Every step -/

theorem writes_blockInv (s : State) (i : Instr) (u : State) (write : Writes s i u)
    (inv : BlockInv s.block) : BlockInv u.block := by
  obtain ⟨preset, voices, nodup⟩ := (blockInv_iff _).mp inv
  refine (blockInv_iff _).mpr ?_
  cases write with
  | tick =>
    rw [tickBlock_active, tickBlock_chain]
    exact ⟨preset, fun v => voiceInv_tickBlock openParams s.block s.noise v (voices v), nodup⟩
  | @keyon _ f v _ _ loaded =>
    have started := voiceInv_startVoice openParams s.block.active f s.block.voices[v]
      (preset.loaded_carrier loaded) (voices v)
    exact ⟨preset, forall_getElem_set (p := VoiceInv s.block.active) started voices, nodup⟩
  | @keyoff _ v _ =>
    have stopped := voiceInv_stopVoice openParams s.block.active s.block.voices[v] (voices v)
    exact ⟨preset, forall_getElem_set (p := VoiceInv s.block.active) stopped voices, nodup⟩
  | alloff =>
    rw [setVoices_active, setVoices_voices, setVoices_chain]
    refine ⟨preset, fun v => ?_, nodup⟩
    rw [stopVoices, getElem_ofFn_fin]
    exact voiceInv_stopVoice openParams s.block.active _ (voices v)
  | gain => exact ⟨preset, voices, nodup⟩
  | filter => exact ⟨preset, voices, nodup⟩
  | chain write => exact ⟨preset, voices, nodup_of_chainWrite write nodup⟩
  | stage => exact ⟨preset, voices, nodup⟩
  | load valid =>
    refine ⟨presetInv_of_valid _ valid, fun v => ?_, List.nodup_nil⟩
    show VoiceInv s.block.staged (commitVoices s.block.voices)[v]
    rw [commitVoices, getElem_ofFn_fin, commitVoice_eq_reset]
    exact voiceInv_reset _

/-- Settles O16: the invariants are those of the preset, of each voice and of the chain, and every write
keeps each of them. -/
theorem stepKeepsBlockInvariant : Obligations.StepKeepsBlockInvariant := by
  unfold Obligations.StepKeepsBlockInvariant
  exact step_block_invariant BlockInv writes_blockInv

end Sys2Proof.Machine

/-! PROOFS. Legality of the stores (R25, R26, R34, R35, R38, R41): what the staging commands, the filter
commands and a `TICK` write is legal. -/

namespace Sys2Proof.Machine

open Sys2Proof

/-! ### Operator records and presets (R25, R26, R87, R88) -/

theorem fclamp_finite (x lo hi : F64) (fx : isFinite x = true) (flo : isFinite lo = true)
    (fhi : isFinite hi = true) : isFinite (fclamp x lo hi) = true := by
  unfold fclamp
  split
  · exact flo
  · split
    · exact fhi
    · exact fx

@[simp] theorem storeInt_ratio (r : OpRecord) (f : IntField) (x : Int) :
    (storeInt r f x).ratio = r.ratio := by cases f <;> rfl

@[simp] theorem storeInt_bpCenter (r : OpRecord) (f : IntField) (x : Int) :
    (storeInt r f x).bpCenter = r.bpCenter := by cases f <;> rfl

@[simp] theorem readInt_storeReal (r : OpRecord) (f : RealField) (x : F64) (g : IntField) :
    readInt (storeReal r f x) g = readInt r g := by cases f <;> cases g <;> rfl

theorem intDomain_ordered (f : IntField) : (intDomain f).1 ≤ (intDomain f).2 := by
  cases f <;> decide

theorem recordLegal_reset : RecordLegal OpRecord.reset :=
  ⟨fun f => by cases f <;> decide, by decide, by decide⟩

theorem recordLegal_storeClamped (r : OpRecord) (f : IntField) (x : Int) (legal : RecordLegal r) :
    RecordLegal (storeClamped r f x) := by
  have bounds := iclamp_bounds x _ _ (intDomain_ordered f)
  refine ⟨fun g => ?_, by simpa [storeClamped] using legal.ratio,
    by simpa [storeClamped] using legal.center⟩
  by_cases same : g = f
  · subst same
    rwa [storeClamped, readInt_storeInt r g _ bounds.1 bounds.2]
  · rw [storeClamped, readInt_storeInt_of_ne r f g _ same]
    exact legal.ints g

theorem recordLegal_storeReal (r : OpRecord) (f : RealField) (x : F64) (finite : isFinite x = true)
    (legal : RecordLegal r) : RecordLegal (storeReal r f x) := by
  have ints (g : IntField) : (intDomain g).1 ≤ readInt (storeReal r f x) g ∧
      readInt (storeReal r f x) g ≤ (intDomain g).2 := by
    rw [readInt_storeReal]
    exact legal.ints g
  cases f with
  | ratio =>
    exact ⟨ints, ⟨fclamp_finite x _ _ finite (by decide) (by decide),
      fclamp_bounds x _ _ (isNaN_of_isFinite x finite) (by decide)⟩, legal.center⟩
  | bpCenter => exact ⟨ints, legal.ratio, finite⟩

theorem presetLegal_reset : PresetLegal Preset.reset where
  count_le := by decide
  source_lt := by decide
  target_lt := by decide
  records := fun o => by
    rw [show Preset.reset.records[o] = OpRecord.reset from getElem_replicate_fin _ o]
    exact recordLegal_reset

/-- An operator index fits the six bits of the feedback registers. -/
theorem toNat_ofNat_op_lt (o : Op) : (BitVec.ofNat 6 o.val).toNat < maxOps := by
  have lt : o.val < 36 := o.isLt
  rw [BitVec.toNat_ofNat]
  omega

theorem presetLegal_of_stagedWrite {pr pr' : Preset} {i : Instr} (write : StagedWrite pr i pr')
    (legal : PresetLegal pr) : PresetLegal pr' := by
  cases write with
  | clear => exact presetLegal_reset
  | count index =>
    obtain ⟨same, le⟩ := (countOf_eq_some _ _).mp index
    exact { legal with count_le := same ▸ le }
  | carrier => exact { legal with }
  | @feedback _ _ src tgt =>
    exact { legal with source_lt := toNat_ofNat_op_lt src, target_lt := toNat_ofNat_op_lt tgt }
  | edge => exact { legal with }
  | @int _ _ x o f =>
    have stored := recordLegal_storeClamped pr.records[o] f x.toInt (legal.records o)
    exact { legal with records := forall_getElem_set stored legal.records }
  | @real _ _ x o f _ _ finite =>
    have stored := recordLegal_storeReal pr.records[o] f x finite (legal.records o)
    exact { legal with records := forall_getElem_set stored legal.records }

/-! ### Filter units and the chain (R35, R38) -/

theorem filterLegal_coefUpdate (P : OpenParams) (u : FilterUnit) (legal : FilterLegal P u) :
    FilterLegal P (coefUpdate P u) := by
  rw [coefUpdate_frame]
  exact { legal with }

theorem filterLegal_filterApply (P : OpenParams) (u : FilterUnit) (x : F64) (legal : FilterLegal P u) :
    FilterLegal P (filterApply P u x).2 := by
  rw [filterApply_frame]
  exact { legal with }

/-- R187: the operand checks and the clamps are those that legality asks for. -/
theorem filterLegal_storeParam (P : OpenParams) (p : FilterParam) (x : F64) (u : FilterUnit)
    (accepted : filterOperandOk p x = true) (legal : FilterLegal P u) :
    FilterLegal P (storeParam P p x u) := by
  obtain ⟨finite, positive⟩ := (Bool.and_eq_true _ _).mp accepted
  have real := isNaN_of_isFinite x finite
  obtain ⟨-, -, -, ordered⟩ := qBounds P
  cases p with
  | ffs => exact filterLegal_coefUpdate P _ { legal with ffs := ⟨finite, positive⟩ }
  | ffreq => exact filterLegal_coefUpdate P _ { legal with ffreq := finite }
  | fq => exact filterLegal_coefUpdate P _ { legal with fq := fclamp_bounds x _ _ real ordered }
  | flevel => exact { legal with flevel := fclamp_bounds x _ _ real (by decide) }

theorem fid_lt_of_unitWrite {P : OpenParams} {u u' : FilterUnit} {i : Instr} {k : Fid}
    (write : UnitWrite P u i k u') : k.val < numFilters P := by
  cases write with
  | configure index => exact ((fidOf_eq_some P _ k).mp index).2
  | param index => exact ((fidOf_eq_some P _ k).mp index).2

theorem filterLegal_of_unitWrite {P : OpenParams} {u u' : FilterUnit} {i : Instr} {k : Fid}
    (write : UnitWrite P u i k u') (legal : FilterLegal P u) : FilterLegal P u' := by
  cases write with
  | @configure _ _ _ kind =>
    have configured : FilterLegal P (configureUnit kind u) := { legal with }
    exact filterLegal_coefUpdate P _ configured
  | param _ _ accepted => exact filterLegal_storeParam P _ _ u accepted legal

/-- The units named by a chain are those it had before, and a unit of the instantiation. -/
theorem fid_lt_of_chainWrite {P : OpenParams} {chain c : List Stage} {i : Instr}
    (write : ChainWrite P chain i c) (legal : ∀ st ∈ chain, st.fid.val < numFilters P) :
    ∀ st ∈ c, st.fid.val < numFilters P := by
  have added (mode : ChainMode) {a : BitVec 8} {k : Fid} (index : fidOf P a = some k) :
      ∀ st ∈ chainAdd mode k chain, st.fid.val < numFilters P := by
    unfold chainAdd
    split
    · exact legal
    · intro st mem
      obtain old | new := List.mem_append.mp mem
      · exact legal st old
      · rw [List.mem_singleton.mp new]
        exact ((fidOf_eq_some P a k).mp index).2
  cases write with
  | addSum index => exact added .sum index
  | addLink index => exact added .link index
  | remove => exact fun st mem => legal st ((mem_chainRemove _ _ _).mp mem).1
  | swap => exact fun st mem => legal st ((chainExchange_perm _ _ chain).mem_iff.mp mem)
  | clear => exact fun st mem => absurd mem List.not_mem_nil

/-- What holds of the unit `k` and is kept by its filter steps, if the chain names it, holds after a walk
along the chain. -/
theorem chainWalk_unit (P : OpenParams) (x : F64) (stages : List Stage) (k : Fid) (p : FilterUnit → Prop)
    (step : k ∈ stages.map Stage.fid → ∀ u y, p u → p (filterApply P u y).2)
    (head : Bool) (acc : F64) (filters : Vector FilterUnit maxFilters) (before : p filters[k]) :
    p (chainWalk P x head acc filters stages).2[k] := by
  induction stages generalizing head acc filters with
  | nil => exact before
  | cons st rest ih =>
    rw [chainWalk]
    refine ih (fun mem => step (List.mem_cons_of_mem _ mem)) _ _ _ ?_
    rw [getElem_set_fin]
    split
    · rename_i same
      subst same
      obtain ⟨y, filtered⟩ := stageApply_unit P x acc head st.mode filters[st.fid]
      rw [filtered]
      exact step List.mem_cons_self _ y before
    · exact before

theorem tickBlock_unit (P : OpenParams) (b : Block) (noise : NoiseInput) (k : Fid) (p : FilterUnit → Prop)
    (step : k ∈ b.chain.map Stage.fid → ∀ u y, p u → p (filterApply P u y).2)
    (before : p b.filters[k]) : p (tickBlock P b noise).2.1.filters[k] := by
  have processed (x : F64) : p (chainProcess P b.chain x b.filters).2[k] := by
    unfold chainProcess
    split
    · exact before
    · rename_i chain
      rw [chain] at step
      exact chainWalk_unit P x _ k p step true posZero b.filters before
  rw [tickBlock]
  exact processed _

/-! ### Every step -/

/-- The voices are no part of what legality is about. -/
theorem StoresLegal.of_voices {P : OpenParams} {b b' : Block} (legal : StoresLegal P b)
    (active : b'.active = b.active) (staged : b'.staged = b.staged) (gain : b'.gain = b.gain)
    (filters : b'.filters = b.filters) (chain : b'.chain = b.chain) : StoresLegal P b' := by
  constructor
  case active => rw [active]; exact legal.active
  case staged => rw [staged]; exact legal.staged
  case gain => rw [gain]; exact legal.gain
  case filters => rw [filters]; exact legal.filters
  case chain_fids => rw [chain]; exact legal.chain_fids
  case spare => rw [filters]; exact legal.spare

/-- A `TICK` writes the histories of the units that the chain names. -/
theorem storesLegal_tickBlock (P : OpenParams) (b : Block) (noise : NoiseInput)
    (legal : StoresLegal P b) : StoresLegal P (tickBlock P b noise).2.1 := by
  constructor
  case active => rw [tickBlock_active]; exact legal.active
  case staged => rw [tickBlock_staged]; exact legal.staged
  case gain => rw [tickBlock_gain]; exact legal.gain
  case chain_fids => rw [tickBlock_chain]; exact legal.chain_fids
  case filters =>
    intro k has
    exact tickBlock_unit P b noise k (FilterLegal P) (fun _ => filterLegal_filterApply P)
      (legal.filters k has)
  case spare =>
    intro k beyond
    refine tickBlock_unit P b noise k (· = FilterUnit.reset P) (fun named => ?_) (legal.spare k beyond)
    obtain ⟨st, mem, rfl⟩ := List.mem_map.mp named
    exact absurd (legal.chain_fids st mem) (Nat.not_lt.mpr beyond)

theorem storesLegal_setFilter (P : OpenParams) (s : State) (k : Fid) (u : FilterUnit)
    (has : k.val < numFilters P) (unit : FilterLegal P u) (legal : StoresLegal P s.block) :
    StoresLegal P (setFilter k u s).block := by
  refine { legal with filters := fun j has_j => ?_, spare := fun j beyond => ?_ }
  · rw [setFilter_filters, getElem_set_fin]
    split
    · exact unit
    · exact legal.filters j has_j
  · have other : j ≠ k := fun same => Nat.not_lt.mpr beyond (same ▸ has)
    rw [setFilter_filters, getElem_set_fin, if_neg other]
    exact legal.spare j beyond

theorem writes_storesLegal (s : State) (i : Instr) (u : State) (write : Writes s i u)
    (legal : StoresLegal openParams s.block) : StoresLegal openParams u.block := by
  cases write with
  | tick => exact storesLegal_tickBlock openParams s.block s.noise legal
  | keyon => exact legal.of_voices rfl rfl rfl rfl rfl
  | keyoff => exact legal.of_voices rfl rfl rfl rfl rfl
  | alloff =>
    exact legal.of_voices (setVoices_active _ s) (setVoices_staged _ s) (setVoices_gain _ s)
      (setVoices_filters _ s) (setVoices_chain _ s)
  | gain finite =>
    exact { legal with gain := fclamp_bounds _ _ _ (isNaN_of_isFinite _ finite) (by decide) }
  | @filter _ k w write =>
    have has := fid_lt_of_unitWrite write
    exact storesLegal_setFilter openParams s k w has
      (filterLegal_of_unitWrite write (legal.filters k has)) legal
  | chain write => exact { legal with chain_fids := fid_lt_of_chainWrite write legal.chain_fids }
  | stage write => exact { legal with staged := presetLegal_of_stagedWrite write legal.staged }
  | load =>
    exact { legal with active := legal.staged, chain_fids := fun st mem => absurd mem List.not_mem_nil }

/-- Settles O17: everything a command writes to a store is legal. -/
theorem stepKeepsStoresLegal : Obligations.StepKeepsStoresLegal := by
  unfold Obligations.StepKeepsStoresLegal
  exact step_block_invariant (StoresLegal openParams) writes_storesLegal

end Sys2Proof.Machine

/-! PROOFS. The writers of each state element (R33, R41, R63, R155): what the write of a command does to the
staged preset, the chain, one filter unit and one voice, field by field. -/

namespace Sys2Proof.Machine

open Sys2Proof

/-! ### The staged preset -/

theorem writes_staged {s u : State} {i : Instr} (write : Writes s i u) :
    u.block.staged = s.block.staged ∨ StagedWrite s.block.staged i u.block.staged := by
  cases write with
  | tick => exact .inl (tickBlock_staged openParams s.block s.noise)
  | keyon => exact .inl rfl
  | keyoff => exact .inl rfl
  | alloff => exact .inl (setVoices_staged _ s)
  | gain => exact .inl rfl
  | filter => exact .inl rfl
  | chain => exact .inl rfl
  | stage write => exact .inr write
  | load => exact .inl rfl

section Staged

variable {pr pr' : Preset} {i : Instr} (write : pr' = pr ∨ StagedWrite pr i pr')
include write

theorem count_writers (changed : pr'.count ≠ pr.count) : (∃ n, i = .pnops n) ∨ i = .pclear := by
  obtain rfl | write := write
  · exact absurd rfl changed
  cases write with
  | count => exact .inl ⟨_, rfl⟩
  | clear => exact .inr rfl
  | _ => exact absurd rfl changed

theorem carriers_writers (changed : pr'.carriers ≠ pr.carriers) :
    (∃ o, i = .pcarr o) ∨ i = .pclear := by
  obtain rfl | write := write
  · exact absurd rfl changed
  cases write with
  | carrier => exact .inl ⟨_, rfl⟩
  | clear => exact .inr rfl
  | _ => exact absurd rfl changed

theorem feedback_writers (changed : pr'.fbSource ≠ pr.fbSource ∨ pr'.fbTarget ≠ pr.fbTarget) :
    (∃ a b, i = .pfbk a b) ∨ i = .pclear := by
  obtain rfl | write := write
  · exact changed.elim (absurd rfl) (absurd rfl)
  cases write with
  | feedback => exact .inl ⟨_, _, rfl⟩
  | clear => exact .inr rfl
  | _ => exact changed.elim (absurd rfl) (absurd rfl)

theorem mods_writers (changed : pr'.mods ≠ pr.mods) : (∃ a b, i = .pmod a b) ∨ i = .pclear := by
  obtain rfl | write := write
  · exact absurd rfl changed
  cases write with
  | edge => exact .inl ⟨_, _, rfl⟩
  | clear => exact .inr rfl
  | _ => exact absurd rfl changed

theorem ints_writers (o : Op) (changed : ∃ f, readInt pr'.records[o] f ≠ readInt pr.records[o] f) :
    (∃ a sel x, i = .popi a sel x) ∨ i = .pclear := by
  obtain ⟨g, changed⟩ := changed
  obtain rfl | write := write
  · exact absurd rfl changed
  cases write with
  | int => exact .inl ⟨_, _, _, rfl⟩
  | clear => exact .inr rfl
  | @real _ _ x p f =>
    refine absurd ?_ changed
    rw [getElem_set_fin]
    split
    · rename_i same
      rw [readInt_storeReal, same]
    · rfl
  | _ => exact absurd rfl changed

theorem reals_writers (o : Op) (changed : pr'.records[o].ratio ≠ pr.records[o].ratio ∨
      pr'.records[o].bpCenter ≠ pr.records[o].bpCenter) :
    (∃ a sel x, i = .popf a sel x) ∨ i = .pclear := by
  obtain rfl | write := write
  · exact changed.elim (absurd rfl) (absurd rfl)
  cases write with
  | real => exact .inl ⟨_, _, _, rfl⟩
  | clear => exact .inr rfl
  | @int _ _ x p f =>
    rw [getElem_set_fin] at changed
    split at changed
    · rename_i same
      rw [storeClamped, storeInt_ratio, storeInt_bpCenter, same] at changed
      exact changed.elim (absurd rfl) (absurd rfl)
    · exact changed.elim (absurd rfl) (absurd rfl)
  | _ => exact changed.elim (absurd rfl) (absurd rfl)

end Staged

/-! ### The gain, the active preset, the chain and the noise input -/

theorem gain_writers {s u : State} {i : Instr} (write : Writes s i u)
    (changed : u.block.gain ≠ s.block.gain) : ∃ g, i = .setgain g := by
  cases write with
  | gain => exact ⟨_, rfl⟩
  | tick => exact absurd (tickBlock_gain openParams s.block s.noise) changed
  | alloff => exact absurd (setVoices_gain _ s) changed
  | _ => exact absurd rfl changed

theorem active_writers {s u : State} {i : Instr} (write : Writes s i u)
    (changed : u.block.active ≠ s.block.active) : i = .loadpreset := by
  cases write with
  | load => rfl
  | tick => exact absurd (tickBlock_active openParams s.block s.noise) changed
  | alloff => exact absurd (setVoices_active _ s) changed
  | _ => exact absurd rfl changed

theorem chain_writers {s u : State} {i : Instr} (write : Writes s i u)
    (changed : u.block.chain ≠ s.block.chain) : (∃ a, i = .chaddsum a) ∨ (∃ a, i = .chaddlink a) ∨
      (∃ a, i = .chremove a) ∨ (∃ a b, i = .chswap a b) ∨ i = .chclear ∨ i = .loadpreset := by
  cases write with
  | chain write =>
    cases write with
    | addSum => exact .inl ⟨_, rfl⟩
    | addLink => exact .inr (.inl ⟨_, rfl⟩)
    | remove => exact .inr (.inr (.inl ⟨_, rfl⟩))
    | swap => exact .inr (.inr (.inr (.inl ⟨_, _, rfl⟩)))
    | clear => exact .inr (.inr (.inr (.inr (.inl rfl))))
  | load => exact .inr (.inr (.inr (.inr (.inr rfl))))
  | tick => exact absurd (tickBlock_chain openParams s.block s.noise) changed
  | alloff => exact absurd (setVoices_chain _ s) changed
  | _ => exact absurd rfl changed

theorem noise_writers {s u : State} {i : Instr} (write : Writes s i u)
    (changed : u.noise ≠ s.noise) : i = .tick := by
  cases write with
  | tick => rfl
  | alloff => exact absurd (setVoices_noise _ s) changed
  | _ => exact absurd rfl changed

/-! ### One filter unit -/

/-- The unit `u'` is `u` but for its history (R37). -/
def HistoryOf (u u' : FilterUnit) : Prop :=
  ∃ x1 x2 y1 y2, u' = { u with x1 := x1, x2 := x2, y1 := y1, y2 := y2 }

theorem historyOf_filterApply (P : OpenParams) {u u' : FilterUnit} (x : F64) (history : HistoryOf u u') :
    HistoryOf u (filterApply P u' x).2 := by
  obtain ⟨x1, x2, y1, y2, rfl⟩ := history
  rw [filterApply_frame]
  exact ⟨_, _, _, _, rfl⟩

/-- A unit after a command: as it was, with another history after a `TICK`, or written by the command that
names it. -/
theorem writes_filter {s u : State} {i : Instr} (write : Writes s i u) (k : Fid) :
    u.block.filters[k] = s.block.filters[k] ∨
      (i = .tick ∧ HistoryOf s.block.filters[k] u.block.filters[k]) ∨
      UnitWrite openParams s.block.filters[k] i k u.block.filters[k] := by
  cases write with
  | tick =>
    exact .inr (.inl ⟨rfl, tickBlock_unit openParams s.block s.noise k (HistoryOf s.block.filters[k])
      (fun _ _ x => historyOf_filterApply openParams x) ⟨_, _, _, _, rfl⟩⟩)
  | @filter _ j w write =>
    rw [setFilter_filters, getElem_set_fin]
    split
    · rename_i same
      subst same
      exact .inr (.inr write)
    · exact .inl rfl
  | alloff =>
    rw [setVoices_filters]
    exact .inl rfl
  | _ => exact .inl rfl

/-- `FPARAM` writes parameters and coefficients, so neither the kind nor the history (R187). -/
theorem storeParam_frame (P : OpenParams) (p : FilterParam) (x : F64) (u : FilterUnit) :
    storeParam P p x u =
      { storeParam P p x u with kind := u.kind, x1 := u.x1, x2 := u.x2, y1 := u.y1, y2 := u.y2 } := by
  obtain ⟨kind⟩ := u
  cases p with
  | flevel => rfl
  | ffs => cases kind <;> rfl
  | ffreq => cases kind <;> rfl
  | fq => cases kind <;> rfl

section Unit

variable {u u' : FilterUnit} {i : Instr} {k : Fid} (write : UnitWrite openParams u i k u')
include write

theorem kind_writers (changed : u'.kind ≠ u.kind) : ∃ a b, i = .fcfg a b := by
  cases write with
  | configure => exact ⟨_, _, rfl⟩
  | param =>
    rw [storeParam_frame] at changed
    exact absurd rfl changed

theorem params_writers (changed : u'.ffs ≠ u.ffs ∨ u'.ffreq ≠ u.ffreq ∨ u'.fq ≠ u.fq ∨
    u'.flevel ≠ u.flevel) : ∃ a b x, i = .fparam a b x := by
  cases write with
  | param => exact ⟨_, _, _, rfl⟩
  | configure =>
    rw [coefUpdate_frame] at changed
    obtain changed | changed | changed | changed := changed <;> exact absurd rfl changed

theorem history_writers (changed : u'.x1 ≠ u.x1 ∨ u'.x2 ≠ u.x2 ∨ u'.y1 ≠ u.y1 ∨ u'.y2 ≠ u.y2) :
    ∃ a b, i = .fcfg a b := by
  cases write with
  | configure => exact ⟨_, _, rfl⟩
  | param =>
    rw [storeParam_frame] at changed
    obtain changed | changed | changed | changed := changed <;> exact absurd rfl changed

/-- Both commands that name a unit may write its coefficients. -/
theorem unit_writers : (∃ a b, i = .fcfg a b) ∨ ∃ a b x, i = .fparam a b x := by
  cases write with
  | configure => exact .inl ⟨_, _, rfl⟩
  | param => exact .inr ⟨_, _, _, rfl⟩

end Unit

/-! ### One voice -/

/-- What a command does to the voice `vs` under the active preset `pr`. -/
inductive VoiceWrite (P : OpenParams) (pr : Preset) (vs : VoiceState) : Instr → VoiceState → Prop
  | kept {i} : VoiceWrite P pr vs i vs
  | sampled (noise : NoiseInput) : VoiceWrite P pr vs .tick
      (deactivateVoice pr.carriers (voiceSample P pr (evalOrder pr) vs noise).voice)
  | started {a f} : VoiceWrite P pr vs (.keyon a f) (startVoice P pr f vs)
  | stopped {a} : VoiceWrite P pr vs (.keyoff a) (stopVoice P pr vs)
  | stoppedWithAll : VoiceWrite P pr vs .alloff (stopVoice P pr vs)
  | cold : VoiceWrite P pr vs .loadpreset VoiceState.reset

theorem writes_voice {s u : State} {i : Instr} (write : Writes s i u) (v : Voice) :
    VoiceWrite openParams s.block.active s.block.voices[v] i u.block.voices[v] := by
  cases write with
  | tick =>
    obtain ⟨noise, after⟩ := getElem_tickBlock_voices openParams s.block s.noise v
    rw [after]
    split
    · exact .sampled noise
    · rename_i inactive
      rw [deactivateVoice_of_inactive _ _ (by simpa using inactive)]
      exact .kept
  | @keyon _ f w =>
    rw [setVoice_voices, getElem_set_fin]
    split
    · rename_i same
      subst same
      exact .started
    · exact .kept
  | @keyoff _ w =>
    rw [setVoice_voices, getElem_set_fin]
    split
    · rename_i same
      subst same
      exact .stopped
    · exact .kept
  | alloff =>
    rw [setVoices_voices, stopVoices, getElem_ofFn_fin]
    exact .stoppedWithAll
  | load =>
    rw [commit, commitVoices, getElem_ofFn_fin, commitVoice_eq_reset]
    exact .cold
  | gain => exact .kept
  | filter => exact .kept
  | chain => exact .kept
  | stage => exact .kept

/-- A release changes neither `RATE` nor `BPMUL` (R141). -/
theorem stopVoice_rate_bpMul (P : OpenParams) (pr : Preset) (vs : VoiceState) (o : Op) :
    (stopVoice P pr vs).ops[o].rate = vs.ops[o].rate ∧
      (stopVoice P pr vs).ops[o].bpMul = vs.ops[o].bpMul := by
  rw [stopVoice, stopOps, getElem_mapReach]
  split <;> exact ⟨rfl, rfl⟩

/-- Nor does the evaluation of a voice (R139). -/
theorem voiceSample_rate_bpMul (P : OpenParams) (pr : Preset) (vs : VoiceState) (noise : NoiseInput)
    (o : Op) :
    (voiceSample P pr (evalOrder pr) vs noise).voice.ops[o].rate = vs.ops[o].rate ∧
      (voiceSample P pr (evalOrder pr) vs noise).voice.ops[o].bpMul = vs.ops[o].bpMul := by
  rw [getElem_voiceSample_ops]
  split <;> exact ⟨rfl, rfl⟩

section Voice

variable {P : OpenParams} {pr : Preset} {vs vs' : VoiceState} {i : Instr}
  (write : VoiceWrite P pr vs i vs')
include write

theorem activity_writers (changed : vs'.active ≠ vs.active ∨ vs'.elapsed ≠ vs.elapsed) :
    (∃ a f, i = .keyon a f) ∨ i = .tick ∨ i = .loadpreset := by
  cases write with
  | sampled => exact .inr (.inl rfl)
  | started => exact .inl ⟨_, _, rfl⟩
  | cold => exact .inr (.inr rfl)
  | kept => exact changed.elim (absurd rfl) (absurd rfl)
  | stopped => exact changed.elim (absurd (stopVoice_active P pr vs)) (absurd (stopVoice_elapsed P pr vs))
  | stoppedWithAll =>
    exact changed.elim (absurd (stopVoice_active P pr vs)) (absurd (stopVoice_elapsed P pr vs))

theorem carrierActive_writers (changed : vs'.carrierActive ≠ vs.carrierActive) :
    i = .tick ∨ i = .loadpreset := by
  cases write with
  | sampled => exact .inl rfl
  | cold => exact .inr rfl
  | kept => exact absurd rfl changed
  | @started _ f => exact absurd (startVoice_carrierActive P pr f vs) changed
  | stopped => exact absurd (stopVoice_carrierActive P pr vs) changed
  | stoppedWithAll => exact absurd (stopVoice_carrierActive P pr vs) changed

theorem rate_bpMul_writers (o : Op)
    (changed : vs'.ops[o].rate ≠ vs.ops[o].rate ∨ vs'.ops[o].bpMul ≠ vs.ops[o].bpMul) :
    (∃ a f, i = .keyon a f) ∨ i = .loadpreset := by
  have not_kept (same : vs'.ops[o].rate = vs.ops[o].rate ∧ vs'.ops[o].bpMul = vs.ops[o].bpMul) : False :=
    changed.elim (absurd same.1) (absurd same.2)
  cases write with
  | started => exact .inl ⟨_, _, rfl⟩
  | cold => exact .inr rfl
  | kept => exact (not_kept ⟨rfl, rfl⟩).elim
  | sampled noise => exact (not_kept (voiceSample_rate_bpMul P pr vs noise o)).elim
  | stopped => exact (not_kept (stopVoice_rate_bpMul P pr vs o)).elim
  | stoppedWithAll => exact (not_kept (stopVoice_rate_bpMul P pr vs o)).elim

theorem env_writers (o : Op) (changed : vs'.ops[o].env ≠ vs.ops[o].env) :
    i = .tick ∨ (∃ a f, i = .keyon a f) ∨ (∃ a, i = .keyoff a) ∨ i = .alloff ∨ i = .loadpreset := by
  cases write with
  | kept => exact absurd rfl changed
  | sampled => exact .inl rfl
  | started => exact .inr (.inl ⟨_, _, rfl⟩)
  | stopped => exact .inr (.inr (.inl ⟨_, rfl⟩))
  | stoppedWithAll => exact .inr (.inr (.inr (.inl rfl)))
  | cold => exact .inr (.inr (.inr (.inr rfl)))

end Voice

/-! ### Every command -/

/-- A command leaves the block and the noise input as they are, or has them as its write leaves them. -/
theorem exec_block_noise (i : Instr) (s t : State) (run : exec i s = .next t) :
    (t.block = s.block ∧ t.noise = s.noise) ∨
      ∃ u, Writes s i u ∧ t.block = u.block ∧ t.noise = u.noise := by
  cases exec_answers s i t run with
  | unchanged => exact .inl ⟨rfl, rfl⟩
  | wrote _ write => exact .inr ⟨_, write, rfl, rfl⟩

/-- Settles O18: an element that no write of the command touches is as it was. -/
theorem onlyListedCommandsWrite : Obligations.OnlyListedCommandsWrite := by
  unfold Obligations.OnlyListedCommandsWrite
  intro i s t run
  obtain ⟨block, noise⟩ | ⟨u, write, block, noise⟩ := exec_block_noise i s t run
  · rw [block, noise]
    simp
  rw [block, noise]
  have staged := writes_staged write
  refine ⟨gain_writers write, active_writers write, count_writers staged, carriers_writers staged,
    feedback_writers staged, mods_writers staged,
    fun o => ⟨ints_writers staged o, reals_writers staged o⟩, chain_writers write, ?filters, ?voices,
    noise_writers write⟩
  case filters =>
    intro k
    obtain kept | ⟨rfl, x1, x2, y1, y2, history⟩ | unit := writes_filter write k
    · rw [kept]
      simp
    · rw [history]
      simp
    · exact ⟨kind_writers unit, params_writers unit, fun changed => .inr (history_writers unit changed),
        fun _ => unit_writers unit⟩
  case voices =>
    intro v
    have voice := writes_voice write v
    exact ⟨activity_writers voice, carrierActive_writers voice, fun o =>
      ⟨rate_bpMul_writers voice o, env_writers voice o⟩⟩

end Sys2Proof.Machine

/-! PROOFS. The state after reset (R48): every store is filled with one reset value, and those values meet the
invariants (R40) and are legal (R25, R34, R35). -/

namespace Sys2Proof.Machine

open Sys2Proof

/-! ### The stores after reset, element by element -/

theorem Preset.reset_mods (o : Op) : Preset.reset.mods[o] = 0 := getElem_replicate_fin _ o

theorem Preset.reset_records (o : Op) : Preset.reset.records[o] = OpRecord.reset :=
  getElem_replicate_fin _ o

theorem VoiceState.reset_ops (o : Op) : VoiceState.reset.ops[o] = OpSlot.reset :=
  getElem_replicate_fin _ o

theorem Block.reset_voices (P : OpenParams) (v : Voice) :
    (Block.reset P).voices[v] = VoiceState.reset := getElem_replicate_fin _ v

theorem Block.reset_filters (P : OpenParams) (k : Fid) :
    (Block.reset P).filters[k] = FilterUnit.reset P := getElem_replicate_fin _ k

theorem readInt_opRecord_reset (f : IntField) : readInt OpRecord.reset f = 0 := by cases f <;> rfl

/-- Settles O13: each store holds its one reset value at every index. -/
theorem resetValues : Obligations.ResetValues := by
  unfold Obligations.ResetValues
  have preset : ∀ pr ∈ [State.reset.block.active, State.reset.block.staged], pr = Preset.reset := by
    simp [State.reset, resetWith, Block.reset]
  have voice (v : Voice) : State.reset.block.voices[v] = VoiceState.reset := Block.reset_voices openParams v
  have unit (k : Fid) : State.reset.block.filters[k] = FilterUnit.reset openParams :=
    Block.reset_filters openParams k
  refine ⟨fun pr mem => ?presets, fun v => ?voices, rfl, fun k => ?filters, rfl⟩
  case presets =>
    rw [preset pr mem]
    refine ⟨rfl, rfl, Preset.reset_mods, rfl, rfl, fun o => ?_⟩
    rw [Preset.reset_records]
    exact ⟨readInt_opRecord_reset, rfl, rfl⟩
  case voices =>
    rw [voice]
    refine ⟨rfl, rfl, rfl, fun o => ?_⟩
    rw [VoiceState.reset_ops]
    exact ⟨rfl, rfl, rfl, rfl, rfl, rfl, rfl, rfl⟩
  case filters =>
    rw [unit]
    exact ⟨rfl, rfl, rfl, rfl, rfl, rfl, rfl, rfl, rfl, rfl, rfl, rfl, rfl, rfl⟩

/-! ### The invariants after reset -/

/-- Without an edge no rank has to fall. -/
theorem presetInv_reset : PresetInv Preset.reset := by
  have no_edge (m o : Op) : hasEdge Preset.reset.mods m o = false := by
    rw [hasEdge, Preset.reset_mods, inSet_zero]
  refine
    { unloaded := fun _ => ⟨rfl, Preset.reset_mods⟩
      loaded_carrier := fun loaded => absurd rfl loaded
      carrier_lt := fun c carrier => ?_
      edge_lt := fun m o edge => ?_
      feedback_lt := fun loaded => absurd rfl loaded
      acyclic := not_cyclic_of_rank _ (fun _ => 0) fun m o edge => ?_ }
  · rw [show Preset.reset.carriers = 0 from rfl, inSet_zero] at carrier
    cases carrier
  · rw [Edge, no_edge] at edge
    cases edge
  · rw [no_edge] at edge
    cases edge

theorem blockInv_reset (P : OpenParams) : BlockInv (Block.reset P) := by
  refine (blockInv_iff _).mpr ⟨presetInv_reset, fun v => ?_, List.nodup_nil⟩
  rw [Block.reset_voices]
  exact voiceInv_reset _

/-- A quotient of at least one unit does not round to zero. -/
theorem roundMagnitude_pos (num den : Nat) (pos : 0 < den) (unit : den ≤ num) :
    0 < roundMagnitude num den := by
  obtain ⟨low, -, above, choice⟩ := roundMagnitude_neighbours num den pos
  have inf : 0 < infMagnitude := by decide
  have low_pos : 0 < low := by
    refine Nat.pos_of_ne_zero fun zero => ?_
    have one : magnitudeUnits (low + 1) = 1 := by rw [zero]; decide
    rw [one, one_mul] at above
    omega
  obtain ⟨-, up⟩ | ⟨-, down⟩ := choice <;> omega

theorem unitsPerOne_pos : 0 < unitsPerOne := pow_pos two_pos _

theorem fLt_zero_i2f (n : Nat) (positive : 0 < n) (finite : isFinite (i2f n) = true) :
    fLt posZero (i2f n) = true := by
  have mag : 0 < magnitudeOf (i2f n) := by
    rw [magnitudeOf_i2f]
    exact roundMagnitude_pos _ 1 one_pos (Nat.mul_pos positive unitsPerOne_pos)
  have zero : orderKey posZero = 0 := by decide
  refine (fLt_iff _ _).mpr ⟨by decide, isNaN_of_isFinite _ finite, ?_⟩
  rw [zero, orderKey, signOf_i2f, if_neg Bool.false_ne_true]
  exact Int.natCast_pos.mpr mag

theorem filterLegal_reset (P : OpenParams) : FilterLegal P (FilterUnit.reset P) := by
  have finite := isFinite_i2f (sampleRate P) (sampleRate_lt P)
  have positive : 0 < sampleRate P := by have := sampleRate_bounds P; omega
  obtain ⟨-, -, -, ordered⟩ := qBounds P
  exact
    { ffs := ⟨finite, fLt_zero_i2f _ positive finite⟩
      ffreq := (by decide : isFinite posZero = true)
      fq := fclamp_bounds f64One _ _ (by decide) ordered
      flevel := (by decide : fLe posZero posZero = true ∧ fLe posZero f64Five = true) }

theorem storesLegal_reset (P : OpenParams) : StoresLegal P (Block.reset P) where
  active := presetLegal_reset
  staged := presetLegal_reset
  gain := (by decide : fLe posZero f64One = true ∧ fLe f64One f64Ten = true)
  filters := fun k _ => by
    rw [Block.reset_filters]
    exact filterLegal_reset P
  chain_fids := fun _ mem => absurd mem List.not_mem_nil
  spare := fun k _ => Block.reset_filters P k

/-- Settles O15: the reset preset, voice and unit each meet what is asked of them. -/
theorem resetMeetsInvariants : Obligations.ResetMeetsInvariants := by
  unfold Obligations.ResetMeetsInvariants
  exact ⟨blockInv_reset openParams, storesLegal_reset openParams⟩

end Sys2Proof.Machine

/-! PROOFS. What the order of the commands on the port gives (R69, R70): the step that takes a word runs its
command, and `KEYON` commands of different voices commute on the block. -/

namespace Sys2Proof.Machine

open Sys2Proof

/-! ### The step that takes a word -/

theorem takeCommand_of_inbox {s : State} {w : CommandWord} {rest : List CommandWord}
    (port : s.inbox = w :: rest) : takeCommand s = some (w, { s with inbox := rest }) := by
  rw [takeCommand, port]

/-- Settles O4: the word taken is the one that decodes, and its arm of the step is the command's meaning. -/
theorem stepRunsDecodedCommand : Obligations.StepRunsDecodedCommand := by
  unfold Obligations.StepRunsDecodedCommand
  intro s w rest i port decoded
  rw [step, takeCommand_of_inbox port]
  simp only [decoded]

/-! ### `KEYON` on the block (R155) -/

/-- The voice that a `KEYON` starts under the preset `pr`: none where it is refused (R229). -/
def startedVoice (pr : Preset) (a : BitVec 8) (f : F64) : Option Voice :=
  if isFinite f = true ∧ pr.count ≠ 0 then voiceOf a else none

/-- The block with voice `v` started at the frequency `f`. -/
def startInBlock (P : OpenParams) (f : F64) (b : Block) (v : Voice) : Block :=
  { b with voices := b.voices.set v.val (startVoice P b.active f b.voices[v]) }

/-- What a `KEYON` makes of the block: the voice it names is started, or nothing changes. -/
def noteOn (P : OpenParams) (a : BitVec 8) (f : F64) (b : Block) : Block :=
  (startedVoice b.active a f).elim b (startInBlock P f b)

theorem voiceOf_of_startedVoice {pr : Preset} {a : BitVec 8} {f : F64} {v : Voice}
    (started : startedVoice pr a f = some v) : voiceOf a = some v := by
  unfold startedVoice at started
  split at started
  · exact started
  · cases started

theorem startedVoice_ne {pr : Preset} {a b : BitVec 8} {f g : F64} {v w : Voice} (different : a ≠ b)
    (first : startedVoice pr a f = some v) (second : startedVoice pr b g = some w) : v ≠ w := by
  rintro rfl
  have namesA := (voiceOf_eq_some a v).mp (voiceOf_of_startedVoice first)
  have namesB := (voiceOf_eq_some b v).mp (voiceOf_of_startedVoice second)
  exact different (BitVec.eq_of_toNat_eq (namesA.trans namesB.symm))

section NoteOn

variable (P : OpenParams)

/-- `noteOn` is `KEYON` seen at the block, its refusals included. -/
theorem keyOn_block (a : BitVec 8) (f : F64) (s : State) :
    (keyOn P a f s).block = noteOn P a f s.block := by
  unfold keyOn noteOn startedVoice
  cases voiceOf a with
  | none => simp
  | some v =>
    by_cases finite : isFinite f = true
    · by_cases unloaded : s.block.active.count = 0#6
      · simp [finite, unloaded]
      · simp [finite, unloaded, startInBlock, setVoice]
    · simp [finite]

@[simp] theorem startInBlock_active (f : F64) (b : Block) (v : Voice) :
    (startInBlock P f b v).active = b.active := rfl

/-- R70 (c): a start reads and writes its own voice's slot alone, beside the active preset, which it
leaves as it is. -/
theorem startInBlock_comm {v w : Voice} (different : v ≠ w) (f g : F64) (b : Block) :
    startInBlock P g (startInBlock P f b v) w = startInBlock P f (startInBlock P g b w) v := by
  have secondReads (x : VoiceState) : (b.voices.set v.val x)[w] = b.voices[w] := by
    rw [getElem_set_fin, if_neg different.symm]
  have firstReads (x : VoiceState) : (b.voices.set w.val x)[v] = b.voices[v] := by
    rw [getElem_set_fin, if_neg different]
  simp only [startInBlock, secondReads, firstReads]
  rw [Vector.set_comm _ _ (Fin.val_ne_of_ne different)]

theorem noteOn_comm {a c : BitVec 8} (different : a ≠ c) (f g : F64) (b : Block) :
    noteOn P c g (noteOn P a f b) = noteOn P a f (noteOn P c g b) := by
  cases first : startedVoice b.active a f with
  | none => cases second : startedVoice b.active c g <;> simp [noteOn, first, second]
  | some v =>
    cases second : startedVoice b.active c g with
    | none => simp [noteOn, first, second]
    | some w =>
      have apart := startedVoice_ne different first second
      simpa [noteOn, first, second] using startInBlock_comm P apart f g b

end NoteOn

theorem exec_keyon_block {a : BitVec 8} {f : F64} {s t : State} (run : exec (.keyon a f) s = .next t) :
    t.block = noteOn openParams a f s.block := by
  cases run
  exact keyOn_block openParams a f s

/-- Settles O32: each `KEYON` acts on the block as `noteOn`, and two of these commute. -/
theorem keyonsOfDifferentVoicesCommute : Obligations.KeyonsOfDifferentVoicesCommute := by
  unfold Obligations.KeyonsOfDifferentVoicesCommute
  intro s s1 s2 t1 t2 a b f g different runA runAB runB runBA
  rw [exec_keyon_block runAB, exec_keyon_block runA, exec_keyon_block runBA, exec_keyon_block runB]
  exact noteOn_comm openParams different f g s.block

end Sys2Proof.Machine

/-! PROOFS. The command encoding (R80 to R85, R95): a format says which operand fields a command uses, and
decoding, encoding and the masks of the opcode table all follow from that one account. -/

namespace Sys2Proof

/-! ### The operand fields a format uses (R82) -/

/-- Whether the format has an operand in `A`. -/
def Format.usesA : Format → Bool
  | .a | .ab | .ad | .abd => true
  | .n | .d => false

/-- Whether the format has an operand in `B`. -/
def Format.usesB : Format → Bool
  | .ab | .abd => true
  | .n | .a | .d | .ad => false

/-- Whether the format has an operand in `D`. -/
def Format.usesD : Format → Bool
  | .d | .ad | .abd => true
  | .n | .a | .ab => false

theorem unusedZero_iff (f : Format) (a b : BitVec 8) (d : BitVec 64) :
    unusedZero f a b d = true ↔
      (f.usesA = false → a = 0) ∧ (f.usesB = false → b = 0) ∧ (f.usesD = false → d = 0) := by
  cases f <;> simp [unusedZero, Format.usesA, Format.usesB, Format.usesD, and_assoc]

/-- An operand field of the encoding: its value where the format uses it, and zero where not. -/
def operandField {n : Nat} (uses : Bool) (x : BitVec n) : BitVec n := if uses then x else 0

theorem operandField_eq_self {n : Nat} {uses : Bool} {x : BitVec n} (zero : uses = false → x = 0) :
    operandField uses x = x := by
  cases uses with
  | false => exact (zero rfl).symm
  | true => rfl

/-! ### Decoding and encoding -/

/-- The three checks of R85 in one statement. -/
theorem decode_eq_ok_iff (w : CommandWord) (i : Instr) :
    decode w = .ok i ↔ fieldRsv w = 0 ∧ ∃ row, rowOf (fieldOp w) = some row ∧
      unusedZero row.1 (fieldA w) (fieldB w) (fieldD w) = true ∧
      row.2 (fieldA w) (fieldB w) (fieldD w) = i := by
  by_cases rsv : fieldRsv w = 0#40
  · cases found : rowOf (fieldOp w) with
    | none => simp [decode, rsv, found]
    | some row =>
      by_cases zero : unusedZero row.1 (fieldA w) (fieldB w) (fieldD w) = true <;>
        simp [decode, rsv, found, zero]
  · simp [decode, rsv]

theorem decode_commandWord {op a b : BitVec 8} {d : BitVec 64} {i : Instr} {row : Row}
    (found : rowOf op = some row) (zero : unusedZero row.1 a b d = true) (command : row.2 a b d = i) :
    decode (commandWord op a b d) = .ok i := by
  rw [decode_eq_ok_iff, fieldRsv_commandWord, fieldOp_commandWord, fieldA_commandWord,
    fieldB_commandWord, fieldD_commandWord]
  exact ⟨rfl, row, found, zero, command⟩

/-- The encoder gives each command the opcode of its own row of `rowOf` and zero in the fields that the
row's format does not use. -/
theorem decode_encode (i : Instr) : decode (encode i) = .ok i := by
  cases i <;> exact decode_commandWord rfl rfl rfl

/-- Each row of `rowOf` builds the command that `encode` gives the row's opcode. -/
theorem encode_of_rowOf {op : BitVec 8} {row : Row} (found : rowOf op = some row) (a b : BitVec 8)
    (d : BitVec 64) :
    encode (row.2 a b d) = commandWord op (operandField row.1.usesA a) (operandField row.1.usesB b)
      (operandField row.1.usesD d) := by
  have opcode {n : Nat} (number : op.toNat = n) : op = BitVec.ofNat 8 n := by
    rw [← number, BitVec.ofNat_toNat, BitVec.setWidth_eq]
  unfold rowOf at found
  split at found <;> rename_i number <;> cases found
  all_goals rw [opcode number]; rfl

/-- Settles O1: of a word that decodes every field is an operand or was checked to be zero, and so is every
field of an encoding. -/
theorem decodeExactlyInvertsEncode : Obligations.DecodeExactlyInvertsEncode := by
  unfold Obligations.DecodeExactlyInvertsEncode
  intro w i
  constructor
  · intro decoded
    obtain ⟨rsv, row, found, zero, rfl⟩ := (decode_eq_ok_iff w i).mp decoded
    obtain ⟨zeroA, zeroB, zeroD⟩ := (unusedZero_iff _ _ _ _).mp zero
    rw [encode_of_rowOf found, operandField_eq_self zeroA, operandField_eq_self zeroB,
      operandField_eq_self zeroD, commandWord_fields w rsv]
  · rintro rfl
    exact decode_encode i

/-- Settles O3: each listed word is the encoding of its command. -/
theorem workedEncodingsDecode : Obligations.WorkedEncodingsDecode := by
  unfold Obligations.WorkedEncodingsDecode
  have worked {w : CommandWord} {i : Instr} (encoded : w = encode i) : decode w = .ok i :=
    (decodeExactlyInvertsEncode w i).mpr encoded
  exact ⟨worked rfl, worked rfl, worked rfl, worked rfl, worked rfl, worked rfl⟩

/-! ### The masks of the opcode table (R84) -/

/-- The mask over an operand field: every bit is compared where the format does not use the field. -/
def operandMask (n : Nat) (uses : Bool) : BitVec n := if uses then 0 else BitVec.allOnes n

theorem and_operandMask_eq_zero {n : Nat} (uses : Bool) (x : BitVec n) :
    x &&& operandMask n uses = 0 ↔ (uses = false → x = 0) := by
  cases uses <;> simp [operandMask]

/-- The mask of a format: `OP`, `RSV` and the operand fields that the format does not use. -/
def Format.mask (f : Format) : CommandWord :=
  BitVec.allOnes 8 ++ operandMask 8 f.usesA ++ operandMask 8 f.usesB ++ BitVec.allOnes 40 ++
    operandMask 64 f.usesD

theorem fields_mask (f : Format) :
    fieldOp f.mask = BitVec.allOnes 8 ∧ fieldA f.mask = operandMask 8 f.usesA ∧
      fieldB f.mask = operandMask 8 f.usesB ∧ fieldRsv f.mask = BitVec.allOnes 40 ∧
      fieldD f.mask = operandMask 64 f.usesD := by
  cases f <;> decide

theorem fields_and (w v : CommandWord) :
    fieldOp (w &&& v) = fieldOp w &&& fieldOp v ∧ fieldA (w &&& v) = fieldA w &&& fieldA v ∧
      fieldB (w &&& v) = fieldB w &&& fieldB v ∧ fieldRsv (w &&& v) = fieldRsv w &&& fieldRsv v ∧
      fieldD (w &&& v) = fieldD w &&& fieldD v :=
  ⟨BitVec.extractLsb'_and, BitVec.extractLsb'_and, BitVec.extractLsb'_and, BitVec.extractLsb'_and,
    BitVec.extractLsb'_and⟩

theorem eq_commandWord_iff (w : CommandWord) (op a b : BitVec 8) (d : BitVec 64) :
    w = commandWord op a b d ↔
      fieldRsv w = 0 ∧ fieldOp w = op ∧ fieldA w = a ∧ fieldB w = b ∧ fieldD w = d := by
  constructor
  · rintro rfl
    exact ⟨fieldRsv_commandWord .., fieldOp_commandWord .., fieldA_commandWord ..,
      fieldB_commandWord .., fieldD_commandWord ..⟩
  · rintro ⟨rsv, rfl, rfl, rfl, rfl⟩
    exact (commandWord_fields w rsv).symm

/-- A word agrees with an opcode under the mask of a format exactly when it passes the checks of R85 for
that opcode and format. -/
theorem and_mask_eq_iff (w : CommandWord) (f : Format) (op : BitVec 8) :
    w &&& f.mask = commandWord op 0 0 0 ↔
      fieldRsv w = 0 ∧ fieldOp w = op ∧ unusedZero f (fieldA w) (fieldB w) (fieldD w) = true := by
  obtain ⟨maskOp, maskA, maskB, maskRsv, maskD⟩ := fields_mask f
  obtain ⟨andOp, andA, andB, andRsv, andD⟩ := fields_and w f.mask
  rw [eq_commandWord_iff, andOp, andA, andB, andRsv, andD, maskOp, maskA, maskB, maskRsv, maskD,
    and_operandMask_eq_zero, and_operandMask_eq_zero, and_operandMask_eq_zero, BitVec.and_allOnes,
    BitVec.and_allOnes, unusedZero_iff]

/-- The row of the opcode table, as (match, mask), that the row of `rowOf` for an opcode amounts to. -/
def tableRow (op : BitVec 8) : Option (CommandWord × CommandWord) :=
  (rowOf op).map fun row => (commandWord op 0 0 0, row.1.mask)

/-- The 23 rows are those of the 256 opcodes that have one, in ascending order. -/
theorem opcodeTable_eq :
    opcodeTable = (List.finRange 256).filterMap fun k => tableRow (BitVec.ofFin k) := by
  decide

theorem mem_opcodeTable_iff (p : CommandWord × CommandWord) :
    p ∈ opcodeTable ↔ ∃ op row, rowOf op = some row ∧ (commandWord op 0 0 0, row.1.mask) = p := by
  have row_iff (op : BitVec 8) :
      tableRow op = some p ↔ ∃ row, rowOf op = some row ∧ (commandWord op 0 0 0, row.1.mask) = p :=
    Option.map_eq_some_iff
  rw [opcodeTable_eq, List.mem_filterMap]
  constructor
  · rintro ⟨k, -, row⟩
    exact ⟨_, (row_iff _).mp row⟩
  · rintro ⟨op, row⟩
    exact ⟨op.toFin, List.mem_finRange _, (row_iff op).mpr row⟩

/-- Settles O2: a table row is an opcode's row of `rowOf`, and agreeing with it under its mask is passing
the checks of the decoder. -/
theorem decodableIffTableRowMatches : Obligations.DecodableIffTableRowMatches := by
  unfold Obligations.DecodableIffTableRowMatches
  intro w
  constructor
  · rintro ⟨i, decoded⟩
    obtain ⟨rsv, row, found, zero, -⟩ := (decode_eq_ok_iff w i).mp decoded
    exact ⟨_, (mem_opcodeTable_iff _).mpr ⟨_, row, found, rfl⟩,
      (and_mask_eq_iff w row.1 _).mpr ⟨rsv, rfl, zero⟩⟩
  · rintro ⟨p, mem, agrees⟩
    obtain ⟨op, row, found, rfl⟩ := (mem_opcodeTable_iff p).mp mem
    obtain ⟨rsv, rfl, zero⟩ := (and_mask_eq_iff w row.1 op).mp agrees
    exact ⟨_, (decode_eq_ok_iff w _).mpr ⟨rsv, row, found, zero, rfl⟩⟩

end Sys2Proof

/-! PROOFS. The response port (R90, R91, R220, R222): the layout of the response word, what a word that is no
command answers, and that each command gives one response. -/

namespace Sys2Proof.Machine

open Sys2Proof

/-- Settles O6: the word is the code's byte put before the data. -/
theorem responseWordLayout : Obligations.ResponseWordLayout := by
  unfold Obligations.ResponseWordLayout
  refine ⟨fun code data => ⟨?code, ?data⟩, rfl, rfl, rfl, rfl, rfl, rfl, rfl, rfl, rfl, rfl, rfl⟩
  case code => exact BitVec.extractLsb'_append_eq_left
  case data => exact BitVec.extractLsb'_append_eq_right

/-! ### Words that are no command (R85, R222) -/

theorem step_of_decode_error {s : State} {w : CommandWord} {rest : List CommandWord} {e : DecodeError}
    (port : s.inbox = w :: rest) (failed : decode w = .error e) :
    step s = .next (refuse .illegal { s with inbox := rest }) := by
  rw [step, takeCommand_of_inbox port]
  simp only [failed]

/-- Settles O5: the decoder fails on the word, and that arm of the step refuses. -/
theorem undecodableWordAnswersIllegal : Obligations.UndecodableWordAnswersIllegal := by
  unfold Obligations.UndecodableWordAnswersIllegal
  intro s w rest port undecodable
  cases decoded : decode w with
  | error e => exact step_of_decode_error port decoded
  | ok i => exact absurd decoded (undecodable i)

/-! ### Reserved selectors of `POPI` (R87) -/

theorem stageInt_of_reserved {sel : BitVec 8} (reserved : intFieldOf sel = none) (a : BitVec 8)
    (x : BitVec 64) (s : State) : stageInt a sel x s = refuse .badIndex s := by
  unfold stageInt
  rw [reserved]
  cases opOf a <;> rfl

/-- Settles O55: the selectors below 15 are listed, and the others name no field. -/
theorem popiSelectorTable : Obligations.PopiSelectorTable := by
  unfold Obligations.PopiSelectorTable
  refine ⟨by decide, fun s a b x high => ?_⟩
  have reserved : intFieldOf b = none := (intFieldOf_eq_none b).mpr high
  exact ⟨reserved, congrArg Host.Outcome.next (stageInt_of_reserved reserved a x s)⟩

/-! ### One response for each word (R90, R220) -/

/-- How the command `i` answers in the state `s`: with a refusal, with an `OK` and no data, or, where R90
gives it data, with an `OK` and that data; a state written before the answer has the ports of `s`. -/
inductive Replies (i : Instr) (s : State) : State → Prop
  | refused (code : Code) : Replies i s (refuse code s)
  | done {u : State} (inbox : u.inbox = s.inbox) (outbox : u.outbox = s.outbox) :
      Replies i s (respondOk u)
  | read {u : State} (data : BitVec 64) (reads : answersData i) (inbox : u.inbox = s.inbox)
      (outbox : u.outbox = s.outbox) : Replies i s (respond .ok data u)

/-- The branches of every command, read for their answers. -/
theorem exec_replies (i : Instr) (s t : State) (run : exec i s = .next t) : Replies i s t := by
  cases i with
  | tick => cases run; exact .read _ (.inl rfl) rfl rfl
  | keyon a f =>
    cases run
    unfold keyOn
    split
    · exact .refused _
    · split
      · exact .refused _
      · split
        · exact .refused _
        · exact .done rfl rfl
  | keyoff a => cases run; unfold keyOff; split; exacts [.refused _, .done rfl rfl]
  | alloff => cases run; exact .done (setVoices_inbox _ s) (setVoices_outbox _ s)
  | setgain x => cases run; unfold gainCommand; split; exacts [.done rfl rfl, .refused _]
  | envrd a b =>
    cases run
    unfold envRead
    split
    · exact .read _ (.inr (.inl ⟨a, b, rfl⟩)) rfl rfl
    · exact .refused _
  | envst a b =>
    cases run
    unfold envState
    split
    · exact .read _ (.inr (.inr (.inl ⟨a, b, rfl⟩))) rfl rfl
    · exact .refused _
  | vact a =>
    cases run
    unfold voiceActive
    split
    · exact .refused _
    · exact .read _ (.inr (.inr (.inr ⟨a, rfl⟩))) rfl rfl
  | fcfg a b => cases run; unfold filterConfig; split; exacts [.done rfl rfl, .refused _]
  | fparam a sel x =>
    cases run
    unfold filterParam
    split
    · split; exacts [.done rfl rfl, .refused _]
    · exact .refused _
  | chaddsum a => cases run; unfold chainAddCommand; split; exacts [.done rfl rfl, .refused _]
  | chaddlink a => cases run; unfold chainAddCommand; split; exacts [.done rfl rfl, .refused _]
  | chremove a => cases run; unfold chainRemoveCommand; split; exacts [.done rfl rfl, .refused _]
  | chswap a b => cases run; unfold chainSwapCommand; split; exacts [.done rfl rfl, .refused _]
  | chclear => cases run; exact .done rfl rfl
  | pclear => cases run; exact .done rfl rfl
  | pnops a => cases run; unfold stageCount; split; exacts [.refused _, .done rfl rfl]
  | pcarr a => cases run; unfold stageCarrier; split; exacts [.refused _, .done rfl rfl]
  | pfbk a b => cases run; unfold stageFeedback; split; exacts [.done rfl rfl, .refused _]
  | pmod a b => cases run; unfold stageEdge; split; exacts [.done rfl rfl, .refused _]
  | popi a sel x => cases run; unfold stageInt; split; exacts [.done rfl rfl, .refused _]
  | popf a sel x =>
    cases run
    unfold stageReal
    split
    · split; exacts [.done rfl rfl, .refused _]
    · exact .refused _
  | loadpreset => cases run; unfold loadPreset; split; exacts [.done rfl rfl, .refused _]

theorem Replies.ports {i : Instr} {s t : State} (reply : Replies i s t) :
    t.inbox = s.inbox ∧ ∃ code data, t.outbox = s.outbox ++ [responseWord code data] ∧
      (data ≠ 0 → code = .ok ∧ answersData i) := by
  cases reply with
  | refused code => exact ⟨rfl, code, 0, rfl, absurd rfl⟩
  | done inbox outbox => exact ⟨inbox, .ok, 0, by rw [respondOk_outbox, outbox], absurd rfl⟩
  | read data reads inbox outbox =>
    exact ⟨inbox, .ok, data, by rw [respond_outbox, outbox], fun _ => ⟨rfl, reads⟩⟩

/-- Settles O7: a word that is no command is refused, and a command replies. -/
theorem everyWordGetsOneResponse : Obligations.EveryWordGetsOneResponse := by
  unfold Obligations.EveryWordGetsOneResponse
  intro s w rest port
  cases decoded : decode w with
  | error e => exact ⟨_, .illegal, 0, step_of_decode_error port decoded, rfl, rfl, absurd rfl⟩
  | ok i =>
    obtain ⟨t, run⟩ := exec_next i { s with inbox := rest }
    obtain ⟨inbox, code, data, outbox, nonzero⟩ := (exec_replies i _ t run).ports
    have stepped : step s = .next t := (stepRunsDecodedCommand s w rest i port decoded).trans run
    refine ⟨t, code, data, stepped, inbox, outbox, fun data_ne => ?_⟩
    obtain ⟨ok, reads⟩ := nonzero data_ne
    exact ⟨ok, i, rfl, reads⟩

end Sys2Proof.Machine

/-! PROOFS. The envelope generator (R104 to R111): what one `EnvStep` does at rest, within a segment and at
its last sample, from which step on a slot is in HOLD or in IDLE, and what the read commands answer (R112,
R113, R159). -/

namespace Sys2Proof.Machine

open Sys2Proof

section Envelope

variable {P : OpenParams} {r : OpRecord} {e : EnvSlot} {st goal : EnvState}

/-! ### One step (R104, R106) -/

theorem isTimed_iff_mem :
    isTimed st = true ↔ st ∈ [EnvState.attack, .decay, .sustain, .release, .preIdle] := by
  cases st <;> decide

theorem isTimed_eq_false_iff : isTimed st = false ↔ st = .hold ∨ st = .idle := by
  cases st <;> decide

theorem envStep_of_resting (resting : isTimed e.state = false) : envStep P r e = e := by
  rw [envStep, resting, if_neg Bool.false_ne_true]

theorem envStep_of_within (timed : isTimed e.state = true) (within : e.pos + 1 < e.size) :
    envStep P r e = envAdvance P e := by
  rw [envStep, if_pos timed, if_neg (Nat.not_le.mpr within)]

theorem envStep_of_last (timed : isTimed e.state = true) (last : e.size ≤ e.pos + 1) :
    envStep P r e = envNext P r (envAdvance P e) := by
  rw [envStep, if_pos timed, if_pos last]

/-! ### The transition of a completed segment (R105, R107) -/

theorem envNext_of_attack (h : e.state = .attack) : envNext P r e = envArm P r .decay e := by
  rw [envNext, h]

theorem envNext_of_decay (h : e.state = .decay) : envNext P r e = envArm P r .sustain e := by
  rw [envNext, h]

theorem envNext_of_sustain (h : e.state = .sustain) : envNext P r e = envHold e := by
  rw [envNext, h]

theorem envNext_of_release (h : e.state = .release) : envNext P r e = envArm P r .preIdle e := by
  rw [envNext, h]

theorem envNext_of_preIdle (h : e.state = .preIdle) : envNext P r e = EnvSlot.reset := by
  rw [envNext, h]

/-- Whatever segment completes, the next one starts at its position 0 from the amplitude then held. -/
theorem envNext_starts (timed : isTimed e.state = true) :
    (envNext P r e).startAmp = (envNext P r e).amp ∧ (envNext P r e).pos = 0 := by
  obtain ⟨-, next⟩ | ⟨-, next⟩ | ⟨-, next⟩ | ⟨-, next⟩ | ⟨-, next⟩ | ⟨resting, -⟩ := envNext_cases P r e
  case inr.inr.inr.inr.inr => rw [timed] at resting; cases resting
  all_goals rw [next]; exact ⟨rfl, rfl⟩

/-- Only the end of PRE_IDLE replaces the amplitude. -/
theorem envNext_amp (notPreIdle : e.state ≠ .preIdle) : (envNext P r e).amp = e.amp := by
  obtain ⟨-, next⟩ | ⟨-, next⟩ | ⟨-, next⟩ | ⟨-, next⟩ | ⟨preIdle, -⟩ | ⟨-, next⟩ := envNext_cases P r e
  case inr.inr.inr.inr.inl => exact absurd preIdle notPreIdle
  all_goals exact (congrArg EnvSlot.amp next :)

/-- The amplitude after a step, at the last sample of a segment as well as before it. -/
theorem envStep_amp (timed : isTimed e.state = true) (notPreIdle : e.state ≠ .preIdle) :
    (envStep P r e).amp = envInterpolate P e (e.pos + 1) := by
  obtain ⟨resting, -⟩ | ⟨-, -, advanced⟩ | ⟨-, -, entered⟩ := envStep_cases P r e
  · rw [timed] at resting; cases resting
  · rw [advanced]; rfl
  · rw [entered, envNext_amp (e := envAdvance P e) notPreIdle]; rfl

/-! ### Any number of steps (R111) -/

theorem envSteps_add (m n : Nat) (e : EnvSlot) :
    envSteps P r (m + n) e = envSteps P r n (envSteps P r m e) := by
  induction m generalizing e with
  | zero => rw [Nat.zero_add, envSteps]
  | succ m ih => rw [Nat.succ_add, envSteps, ih, envSteps]

theorem envSteps_of_resting (resting : isTimed e.state = false) (n : Nat) : envSteps P r n e = e := by
  induction n with
  | zero => rfl
  | succ n ih => rw [envSteps, envStep_of_resting resting, ih]

/-- Before the last sample of a segment only the position and the amplitude have changed. -/
theorem envSteps_of_within (timed : isTimed e.state = true) {n : Nat} (within : e.pos + n < e.size) :
    ∃ x, envSteps P r n e = { e with pos := e.pos + n, amp := x } := by
  induction n generalizing e with
  | zero => exact ⟨e.amp, rfl⟩
  | succ n ih =>
    obtain ⟨x, steps⟩ := ih (e := envAdvance P e) timed (by simp only [envAdvance]; omega)
    refine ⟨x, ?_⟩
    rw [envSteps, envStep_of_within timed (by omega), steps]
    simp only [envAdvance, Nat.add_assoc, Nat.add_comm 1]

/-- Within an armed segment, its last sample included, each step interpolates at its own number. -/
theorem envSteps_envArm_amp (timed : isTimed st = true) (notPreIdle : st ≠ .preIdle) {n : Nat}
    (within : n < envLength P r st) :
    (envSteps P r (n + 1) (envArm P r st e)).amp = envInterpolate P (envArm P r st e) (n + 1) := by
  obtain ⟨x, steps⟩ := envSteps_of_within (P := P) (r := r) (e := envArm P r st e) timed
    (n := n) (by simpa only [envArm, Nat.zero_add] using within)
  rw [envSteps_add, steps, envSteps, envSteps, envStep_amp timed notPreIdle]
  simp only [envInterpolate, envArm, Nat.zero_add]

theorem envSteps_envArm_state (timed : isTimed st = true) {k : Nat} (within : k < envLength P r st) :
    (envSteps P r k (envArm P r st e)).state = st := by
  obtain ⟨x, steps⟩ := envSteps_of_within (P := P) (r := r) (e := envArm P r st e) timed
    (n := k) (by simpa only [envArm, Nat.zero_add] using within)
  rw [steps, envArm]

/-- An armed segment completes at exactly the step its length counts. -/
theorem envSteps_envArm_length (P : OpenParams) (r : OpRecord) (e : EnvSlot)
    (timed : isTimed st = true) : ∃ last : EnvSlot, last.state = st ∧
      envSteps P r (envLength P r st) (envArm P r st e) = envNext P r last := by
  obtain ⟨n, length⟩ := Nat.exists_eq_add_of_le' (envLength_bounds P r st).1
  obtain ⟨x, steps⟩ := envSteps_of_within (P := P) (r := r) (e := envArm P r st e) timed
    (n := n) (by simp only [envArm]; omega)
  refine ⟨envAdvance P { envArm P r st e with pos := (envArm P r st e).pos + n, amp := x }, rfl, ?_⟩
  rw [length, envSteps_add, steps, envSteps, envSteps]
  exact envStep_of_last timed (by simp only [envArm]; omega)

/-- A slot armed for another state is in `goal` when its segment has completed and the slot that this
left, run for the steps that remain, is in `goal`. -/
theorem envSteps_envArm_state_iff (P : OpenParams) (r : OpRecord) (e : EnvSlot)
    (timed : isTimed st = true) (other : st ≠ goal) : ∃ last : EnvSlot, last.state = st ∧
      ∀ k, (envSteps P r k (envArm P r st e)).state = goal ↔ envLength P r st ≤ k ∧
        (envSteps P r (k - envLength P r st) (envNext P r last)).state = goal := by
  obtain ⟨last, last_state, complete⟩ := envSteps_envArm_length P r e timed
  refine ⟨last, last_state, fun k => ?_⟩
  obtain within | ⟨n, rfl⟩ := (Nat.lt_or_ge k (envLength P r st)).imp_right Nat.exists_eq_add_of_le
  · rw [envSteps_envArm_state timed within]
    exact ⟨fun same => absurd same other, fun ⟨completed, _⟩ => absurd within (Nat.not_lt.mpr completed)⟩
  · rw [envSteps_add, complete, Nat.add_sub_cancel_left]
    exact (and_iff_right (Nat.le_add_right _ n)).symm

/-- R111 (b): an armed attack is followed by DECAY, SUSTAIN and HOLD. -/
theorem envInit_hold_iff (P : OpenParams) (r : OpRecord) (e : EnvSlot) (k : Nat) :
    (envSteps P r k (envInit P r e)).state = .hold ↔
      envLength P r .attack + envLength P r .decay + envLength P r .sustain ≤ k := by
  obtain ⟨a, a_state, attack⟩ := envSteps_envArm_state_iff (st := .attack) (goal := .hold) P r e rfl nofun
  obtain ⟨d, d_state, decay⟩ := envSteps_envArm_state_iff (st := .decay) (goal := .hold) P r a rfl nofun
  obtain ⟨s, s_state, sustain⟩ :=
    envSteps_envArm_state_iff (st := .sustain) (goal := .hold) P r d rfl nofun
  rw [envInit, attack, envNext_of_attack a_state, decay, envNext_of_decay d_state, sustain,
    envNext_of_sustain s_state, envSteps_of_resting (e := envHold s) rfl]
  simp only [envHold, and_true]
  omega

/-- R111 (c): an armed release is followed by PRE_IDLE and IDLE. -/
theorem envArm_release_idle_iff (P : OpenParams) (r : OpRecord) (e : EnvSlot) (k : Nat) :
    (envSteps P r k (envArm P r .release e)).state = .idle ↔
      envLength P r .release + envLength P r .preIdle ≤ k := by
  obtain ⟨l, l_state, release⟩ :=
    envSteps_envArm_state_iff (st := .release) (goal := .idle) P r e rfl nofun
  obtain ⟨p, p_state, preIdle⟩ :=
    envSteps_envArm_state_iff (st := .preIdle) (goal := .idle) P r l rfl nofun
  rw [release, envNext_of_release l_state, preIdle, envNext_of_preIdle p_state,
    envSteps_of_resting (e := EnvSlot.reset) rfl]
  simp only [EnvSlot.reset, and_true]
  omega

/-! ### Arming (R109) -/

theorem isReleasable_iff_mem :
    isReleasable st = true ↔ st ∈ [EnvState.attack, .decay, .sustain, .hold] := by
  cases st <;> decide

theorem isReleasable_eq_false_iff_mem :
    isReleasable st = false ↔ st ∈ [EnvState.release, .preIdle, .idle] := by
  cases st <;> decide

theorem envRelease_of_releasable (releasable : isReleasable e.state = true) :
    envRelease P r e = envArm P r .release e := by
  rw [envRelease, if_pos releasable]

theorem envRelease_of_not_releasable (kept : isReleasable e.state = false) : envRelease P r e = e := by
  rw [envRelease, kept, if_neg Bool.false_ne_true]

end Envelope

/-! ### The obligations on one slot -/

/-- Settles O23: each of the three is one arming, or keeps the slot, or resets it. -/
theorem envelopeArming : Obligations.EnvelopeArming := by
  unfold Obligations.EnvelopeArming
  intro P r e
  refine ⟨rfl, fun releasable => ?_, fun kept => ?_, rfl⟩
  · rw [envRelease_of_releasable (isReleasable_iff_mem.mpr releasable)]
    rfl
  · exact envRelease_of_not_releasable (isReleasable_eq_false_iff_mem.mpr kept)

/-- Settles O24: before the last sample a timed slot advances, and a resting slot is kept. -/
theorem envelopeStepsWithinSegment : Obligations.EnvelopeStepsWithinSegment := by
  unfold Obligations.EnvelopeStepsWithinSegment
  intro P r e
  exact ⟨fun timed within => envStep_of_within (isTimed_iff_mem.mpr timed) within,
    fun resting => envStep_of_resting (isTimed_eq_false_iff.mpr resting)⟩

/-- Settles O25: at the last sample the slot advances and enters the next state of the sequence. -/
theorem envelopeContinuity : Obligations.EnvelopeContinuity := by
  unfold Obligations.EnvelopeContinuity
  intro P r e timed last
  have amp := envStep_amp (P := P) (r := r) timed
  rw [envStep_of_last timed last] at amp ⊢
  obtain ⟨start, pos⟩ := envNext_starts (P := P) (r := r) (e := envAdvance P e) timed
  refine ⟨start, pos, amp, fun h => ?attack, fun h => ?decay, fun h => ?sustain, fun h => ?release,
    fun h => ?preIdle⟩
  case attack => rw [envNext_of_attack (e := envAdvance P e) h]; exact ⟨rfl, rfl, rfl⟩
  case decay => rw [envNext_of_decay (e := envAdvance P e) h]; exact ⟨rfl, rfl, rfl⟩
  case sustain => rw [envNext_of_sustain (e := envAdvance P e) h]; exact ⟨rfl, rfl, rfl⟩
  case release => rw [envNext_of_release (e := envAdvance P e) h]; exact ⟨rfl, rfl, rfl⟩
  case preIdle => exact envNext_of_preIdle (e := envAdvance P e) h

/-- Settles O26: the attack is one armed segment, and two more segments lead to HOLD. -/
theorem attackAmplitudesAndHoldCount : Obligations.AttackAmplitudesAndHoldCount := by
  unfold Obligations.AttackAmplitudesAndHoldCount
  intro P r e
  refine ⟨fun k first last => ?_, envInit_hold_iff P r e⟩
  obtain ⟨n, rfl⟩ := Nat.exists_eq_add_of_le' first
  exact envSteps_envArm_amp (st := .attack) rfl nofun last

/-- Settles O27: an effective release is an armed RELEASE. -/
theorem releaseReachesIdleExactly : Obligations.ReleaseReachesIdleExactly := by
  unfold Obligations.ReleaseReachesIdleExactly
  intro P r e releasable k
  rw [envRelease_of_releasable releasable]
  exact envArm_release_idle_iff P r e k

/-! ### The read commands (R112, R113, R159) -/

section Reads

variable {a b : BitVec 8} {v : Voice} {o : Op} (s : State)

theorem envRead_of_index (voice : voiceOf a = some v) (operator : opOf b = some o) :
    envRead a b s = respond .ok (slotAt s o v).env.amp s := by
  simp only [envRead, voice, operator]

theorem envState_of_index (voice : voiceOf a = some v) (operator : opOf b = some o) :
    envState a b s = respond .ok (BitVec.ofNat 64 (envCode (slotAt s o v).env.state)) s := by
  simp only [envState, voice, operator]

theorem voiceActive_of_index (voice : voiceOf a = some v) :
    voiceActive a s = respond .ok (if s.block.voices[v].active then 1 else 0) s := by
  simp only [voiceActive, voice]

end Reads

/-- Settles O28: indices in range address an element, and each read answers with it. -/
theorem readCommandsAnswerElement : Obligations.ReadCommandsAnswerElement := by
  unfold Obligations.ReadCommandsAnswerElement
  intro s a b v o voice_index operator_index
  have voice : voiceOf a = some v := (voiceOf_eq_some a v).mpr voice_index
  have operator : opOf b = some o := (opOf_eq_some b o).mpr operator_index
  refine ⟨congrArg Host.Outcome.next (envRead_of_index s voice operator), ?code,
    congrArg Host.Outcome.next (voiceActive_of_index s voice)⟩
  refine congrArg Host.Outcome.next ((envState_of_index s voice operator).trans ?_)
  rw [slotAt]
  cases s.block.voices[v].ops[o].env.state <;> rfl

end Sys2Proof.Machine

/-! PROOFS. The keyboard-scaling gain unit (R122 to R126): `BpLevel` as one rule for both sides, and the class
of the value it gives. -/

namespace Sys2Proof.Machine

open Sys2Proof

/-! ### The comparisons and the clamp (R14, R15) -/

theorem fEq_iff (a b : F64) :
    fEq a b = true ↔ isNaN a = false ∧ isNaN b = false ∧ orderKey a = orderKey b := by
  simp [fEq, and_assoc]

theorem fEq_comm (a b : F64) : fEq a b = fEq b a := by
  rw [Bool.eq_iff_iff, fEq_iff, fEq_iff]
  tauto

theorem fEq_eq_false_of_fLt {a b : F64} (lt : fLt a b = true) : fEq a b = false := by
  obtain ⟨-, -, below⟩ := (fLt_iff a b).mp lt
  rw [Bool.eq_false_iff, Ne, fEq_iff]
  exact fun ⟨_, _, same⟩ => below.ne same

theorem fLt_eq_false_of_fLt {a b : F64} (lt : fLt a b = true) : fLt b a = false := by
  obtain ⟨-, -, below⟩ := (fLt_iff a b).mp lt
  rw [Bool.eq_false_iff, Ne, fLt_iff]
  exact fun ⟨_, _, above⟩ => below.asymm above

theorem isNaN_fclamp (x lo hi : F64) (order : fLe lo hi = true) : isNaN (fclamp x lo hi) = isNaN x := by
  cases nan : isNaN x
  case true => rw [fclamp_of_isNaN x lo hi nan, nan]
  case false =>
    obtain ⟨low, -⟩ := fclamp_bounds x lo hi nan order
    obtain ⟨-, real, -⟩ := (fLe_iff _ _).mp low
    exact real

/-! ### The curve of a side (R124, R125) -/

theorem isNaN_bpCurve (P : OpenParams) (kind : Nat) {ratio : F64} (low : fLe posZero ratio = true)
    (high : fLe ratio f64One = true) : isNaN (bpCurve P kind ratio) = false := by
  cases raw : isNaN (P.breakpointCurve kind ratio)
  case true => simp only [bpCurve, low, high, raw, Bool.and_self, if_true]; decide
  case false => simp [bpCurve, raw]

theorem bpCurveLevel_bounds (P : OpenParams) (curve : Nat) (ratio : F64) :
    isNaN (bpCurveLevel P curve ratio) = true ∨
      fLe posZero (bpCurveLevel P curve ratio) = true ∧ fLe (bpCurveLevel P curve ratio) f64Two = true := by
  rw [bpCurveLevel, isNaN_fclamp _ _ _ (by decide), or_iff_not_imp_left, Bool.not_eq_true]
  exact fun real => fclamp_bounds _ posZero f64Two real (by decide)

/-- The clamp of the ratio keeps the curve within the operands on which R124 excludes a NaN. -/
theorem isNaN_ratio_of_isNaN_bpCurveLevel {P : OpenParams} {curve : Nat} {ratio : F64}
    (nan : isNaN (bpCurveLevel P curve ratio) = true) : isNaN ratio = true := by
  by_contra real
  obtain ⟨low, high⟩ := fclamp_bounds ratio posZero f64One (Bool.eq_false_iff.mpr real) (by decide)
  rw [bpCurveLevel, isNaN_fclamp _ _ _ (by decide), isNaN_bpCurve P curve low high] at nan
  exact Bool.false_ne_true nan

/-! ### One rule for both sides (R125) -/

/-- The depth of the side on which `f` lies: left below the center, else right. -/
def sideDepth (r : OpRecord) (f : F64) : BitVec 7 :=
  if fLt f r.bpCenter then r.bpLDepth else r.bpRDepth

/-- The curve code of the side on which `f` lies. -/
def sideCurve (r : OpRecord) (f : F64) : BitVec 3 :=
  if fLt f r.bpCenter then r.bpLCurve else r.bpRCurve

section Level

variable (P : OpenParams) {r : OpRecord} {f : F64}

theorem bpLevel_of_center (center : fEq f r.bpCenter = true) : bpLevel P r f = f64One := if_pos center

/-- Off the center the two branches of R125 differ in the side's depth, curve and ratio alone. -/
theorem bpLevel_of_side (side : fEq f r.bpCenter = false) :
    bpLevel P r f = if sideDepth r f = 0 then f64One
      else bpCurveLevel P (sideCurve r f).toNat (sideRatio P r f) := by
  unfold bpLevel sideDepth sideCurve sideRatio
  rw [side, if_neg Bool.false_ne_true]
  split
  next below => simp only [bpLeftRatio, pctPos]
  next notBelow => simp only [bpRightRatio, pctPos]

theorem bpLevel_of_below (below : fLt f r.bpCenter = true) :
    bpLevel P r f = if r.bpLDepth = 0 then f64One
      else bpCurveLevel P r.bpLCurve.toNat (sideRatio P r f) := by
  rw [bpLevel_of_side P (fEq_eq_false_of_fLt below), sideDepth, sideCurve, if_pos below, if_pos below]

theorem bpLevel_of_above (above : fLt r.bpCenter f = true) :
    bpLevel P r f = if r.bpRDepth = 0 then f64One
      else bpCurveLevel P r.bpRCurve.toNat (sideRatio P r f) := by
  have side : fEq f r.bpCenter = false := (fEq_comm _ _).trans (fEq_eq_false_of_fLt above)
  rw [bpLevel_of_side P side, sideDepth, sideCurve, fLt_eq_false_of_fLt above,
    if_neg Bool.false_ne_true, if_neg Bool.false_ne_true]

/-- What `BpLevel` can answer: 1, or off the center, on a side of nonzero depth, that side's curve. -/
theorem bpLevel_cases (r : OpRecord) (f : F64) :
    bpLevel P r f = f64One ∨
      (fEq f r.bpCenter = false ∧ sideDepth r f ≠ 0 ∧
        bpLevel P r f = bpCurveLevel P (sideCurve r f).toNat (sideRatio P r f)) := by
  cases side : fEq f r.bpCenter
  case true => exact .inl (bpLevel_of_center P side)
  case false =>
    rw [bpLevel_of_side P side]
    split
    next => exact .inl rfl
    next deep => exact .inr ⟨rfl, deep, rfl⟩

theorem bpLevel_bounds (r : OpRecord) (f : F64) :
    isNaN (bpLevel P r f) = true ∨
      fLe posZero (bpLevel P r f) = true ∧ fLe (bpLevel P r f) f64Two = true := by
  obtain one | ⟨-, -, level⟩ := bpLevel_cases P r f
  · rw [one]; decide
  · rw [level]; exact bpCurveLevel_bounds P _ _

theorem sideRatio_of_isNaN_bpLevel (nan : isNaN (bpLevel P r f) = true) :
    isNaN (sideRatio P r f) = true ∧ fEq f r.bpCenter = false ∧ sideDepth r f ≠ 0 := by
  obtain one | ⟨side, deep, level⟩ := bpLevel_cases P r f
  · rw [one] at nan
    exact absurd nan (by decide)
  · rw [level] at nan
    exact ⟨isNaN_ratio_of_isNaN_bpCurveLevel nan, side, deep⟩

end Level

/-! ### The obligations on the multiplier -/

/-- Settles O44: neither the center nor a side of depth 0 reaches a curve. -/
theorem breakpointIdentityAndNoop : Obligations.BreakpointIdentityAndNoop := by
  unfold Obligations.BreakpointIdentityAndNoop
  intro P r f
  exact ⟨bpLevel_of_center P, fun below flat => (bpLevel_of_below P below).trans (if_pos flat),
    fun above flat => (bpLevel_of_above P above).trans (if_pos flat)⟩

/-- Settles O45: the clamps give the range, and pass on a NaN that only the ratio can bring in. -/
theorem breakpointLevelBySide : Obligations.BreakpointLevelBySide := by
  unfold Obligations.BreakpointLevelBySide
  intro P r f
  refine ⟨fun below deep => (bpLevel_of_below P below).trans (if_neg deep),
    fun above deep => (bpLevel_of_above P above).trans (if_neg deep), bpLevel_bounds P r f, fun nan => ?_⟩
  obtain ⟨ratio, side, deep⟩ := sideRatio_of_isNaN_bpLevel P nan
  refine ⟨ratio, side, ?_⟩
  unfold sideDepth at deep
  split at deep
  next below => rwa [if_pos below]
  next below => rwa [if_neg below]

end Sys2Proof.Machine

/-! PROOFS. The operator oscillator (R131 to R141): the waveform, the averages and the feedback, the cascades
of the note events, and the evaluation of a voice's operators in `EVAL_ORDER`. -/

namespace Sys2Proof.Machine

open Sys2Proof Relation

/-! ### The waveform (R131, R133, R135) -/

section Waveform

variable (P : OpenParams) (noise : NoiseInput)

/-- A draw lies in [-1, 1], whether it waits at the input or comes from the open sequence. -/
theorem drawNoise_bounds :
    fLe f64MinusOne (drawNoise P noise).1 = true ∧ fLe (drawNoise P noise).1 f64One = true := by
  unfold drawNoise
  cases noise.waiting with
  | nil => exact noiseValue_bounds _
  | cons x rest => exact noiseValue_bounds x

theorem drawNoise_taken : (drawNoise P noise).2.taken = noise.taken + 1 := by
  unfold drawNoise
  cases noise.waiting <;> rfl

theorem drawNoise_waiting : (drawNoise P noise).2.waiting = noise.waiting.tail := by
  unfold drawNoise
  split
  next empty => rw [empty, List.tail_nil]
  next x rest more => rw [more, List.tail_cons]

theorem noiseValue_of_bounds {x : F64} (low : fLe f64MinusOne x = true) (high : fLe x f64One = true) :
    noiseValue x = x := by
  rw [noiseValue, low, high, Bool.and_self, if_pos rfl]

theorem drawNoise_of_waiting {x : F64} {rest : List F64} (waiting : noise.waiting = x :: rest) :
    (drawNoise P noise).1 = noiseValue x := by
  rw [drawNoise, waiting]

theorem wave_of_noise_kind (rate modulation phase : F64) (t : BitVec 64) :
    wave P 4 rate modulation phase t noise = drawNoise P noise := rfl

theorem wave_of_silent_kind (kind : BitVec 8) (silent : 5 ≤ kind.toNat) (rate modulation phase : F64)
    (t : BitVec 64) : wave P kind rate modulation phase t noise = (posZero, noise) := by
  unfold wave
  split
  case h_6 => rfl
  all_goals omega

end Waveform

/-- Settles O42: the kinds below 4 are the formulas of R133, kind 4 is the draw, and no other kind is left. -/
theorem waveByKind : Obligations.WaveByKind := by
  unfold Obligations.WaveByKind
  intro P rate modulation phase t noise tf sine
  refine ⟨rfl, rfl, rfl, rfl, ?draw, fun kind silent =>
    wave_of_silent_kind P noise kind silent rate modulation phase t⟩
  rw [wave_of_noise_kind]
  obtain ⟨low, high⟩ := drawNoise_bounds P noise
  refine ⟨low, high, drawNoise_taken P noise, drawNoise_waiting P noise, ?first⟩
  intro x rest waiting x_low x_high
  exact (drawNoise_of_waiting P noise waiting).trans (noiseValue_of_bounds x_low x_high)

/-! ### Modulation (R137) and feedback (R138) -/

/-- The members of a set are the only ascending list of them. -/
theorem members_eq_of_pairwise {set : OpSet} {ops : List Op} (ascending : ops.Pairwise (· < ·))
    (mem : ∀ o : Op, o ∈ ops ↔ inSet set o = true) : members set = ops :=
  (pairwise_members set).eq_of_mem_iff ascending fun o => (mem_members set o).trans (mem o).symm

theorem members_zero : members 0 = [] :=
  members_eq_of_pairwise List.Pairwise.nil fun o => by rw [inSet_zero]; simp

theorem modulation_of_no_modulator (P : OpenParams) {pr : Preset} {o : Op} (none : modSet pr o = 0)
    (frames : Vector F64 maxOps) : modulation P pr o frames = posZero := by
  rw [modulation, modsOf, none, members_zero, averageFrames]

/-- Settles O39: `MODS` is the ascending list of the modulators, and the average is the model's own. -/
theorem modulationAveragesFrames : Obligations.ModulationAveragesFrames := by
  unfold Obligations.ModulationAveragesFrames
  intro P pr o frames
  refine ⟨fun none => modulation_of_no_modulator P none frames, fun first rest ascending mem => ?_⟩
  rw [modulation, modsOf, members_eq_of_pairwise ascending mem, averageFrames]

theorem feedback_of_silent (P : OpenParams) {pr : Preset} {o : Op}
    (silent : o.val ≠ pr.fbSource.toNat ∨ pr.records[o].fbDepth.toInt = 0) (rate : F64) (t : BitVec 64) :
    feedback P pr o rate t = posZero := if_pos silent

theorem feedback_of_sounding (P : OpenParams) {pr : Preset} {o : Op} (source : o.val = pr.fbSource.toNat)
    (deep : pr.records[o].fbDepth.toInt ≠ 0) (rate : F64) (t : BitVec 64) :
    feedback P pr o rate t = fMul P (fbLut P pr.records[o].fbDepth.toInt)
      ((harmonics pr.records[o].fbDepth.toInt).foldl
        (fun acc h => fAdd P acc (harmonic P rate (i2f t.toNat) h)) posZero) :=
  if_neg fun silent => silent.elim (fun other => other source) deep

theorem harmonics_of_pos {depth : Int} (positive : 0 < depth) : harmonics depth = [2, 3, 4, 5, 6] :=
  if_pos positive

theorem harmonics_of_neg {depth : Int} (negative : depth < 0) : harmonics depth = [3, 5, 7, 9, 11] :=
  if_neg negative.not_gt

/-- Settles O40: the sign of the depth chooses the list of harmonics that is summed. -/
theorem feedbackSumsHarmonics : Obligations.FeedbackSumsHarmonics := by
  unfold Obligations.FeedbackSumsHarmonics
  intro P pr o rate t depth term sum5
  refine ⟨fun silent => feedback_of_silent P silent rate t, fun source positive => ?_,
    fun source negative => ?_⟩
  · rw [feedback_of_sounding P source positive.ne', harmonics_of_pos positive]
    rfl
  · rw [feedback_of_sounding P source negative.ne, harmonics_of_neg negative]
    rfl

/-! ### The cascades of the note events (R140, R141) -/

/-- `after` is `ops` with `g` applied once to the slot of each operator in `touched`, and nothing else. -/
def AppliedOn (g : Op → OpSlot → OpSlot) (touched : Op → Prop)
    (ops after : Vector OpSlot maxOps) : Prop :=
  ∀ k : Op, (touched k → after[k] = g k ops[k]) ∧ (¬ touched k → after[k] = ops[k])

section Applied

variable {g : Op → OpSlot → OpSlot} {p q : Op → Prop} {a b c : Vector OpSlot maxOps}

theorem AppliedOn.unique (first : AppliedOn g p a b) (second : AppliedOn g p a c) : b = c := by
  refine Vector.ext fun i bound => ?_
  obtain ⟨b_touched, b_kept⟩ := first ⟨i, bound⟩
  obtain ⟨c_touched, c_kept⟩ := second ⟨i, bound⟩
  by_cases touched : p ⟨i, bound⟩
  · exact (b_touched touched).trans (c_touched touched).symm
  · exact (b_kept touched).trans (c_kept touched).symm

/-- Applying an idempotent `g` over two sets, which may overlap, applies it once over their union. -/
theorem AppliedOn.trans (idem : ∀ k slot, g k (g k slot) = g k slot) (first : AppliedOn g p a b)
    (second : AppliedOn g q b c) : AppliedOn g (fun k => p k ∨ q k) a c := by
  intro k
  obtain ⟨b_touched, b_kept⟩ := first k
  obtain ⟨c_touched, c_kept⟩ := second k
  by_cases hp : p k <;> by_cases hq : q k
  · simp [hp, hq, c_touched, b_touched, idem]
  · simp [hp, hq, c_kept, b_touched]
  · simp [hp, hq, c_touched, b_kept]
  · simp [hp, hq, c_kept, b_kept]

theorem AppliedOn.congr (applied : AppliedOn g p a b) (same : ∀ k, p k ↔ q k) : AppliedOn g q a b := by
  rwa [← funext fun k => propext (same k)]

theorem appliedOn_set (g : Op → OpSlot → OpSlot) (o : Op) (ops : Vector OpSlot maxOps) :
    AppliedOn g (· = o) ops (ops.set o.val (g o ops[o])) := by
  intro k
  rw [getElem_set_fin]
  exact ⟨fun same => by rw [if_pos same, same], fun other => if_neg other⟩

theorem appliedOn_foldl (idem : ∀ k slot, g k (g k slot) = g k slot)
    {step : Op → Vector OpSlot maxOps → Vector OpSlot maxOps} {touched : Op → Op → Prop}
    (applied : ∀ o ops, AppliedOn g (touched o) ops (step o ops)) (order : List Op)
    (ops : Vector OpSlot maxOps) :
    AppliedOn g (fun k => ∃ o ∈ order, touched o k) ops
      (order.foldl (fun acc o => step o acc) ops) := by
  induction order generalizing ops with
  | nil => exact fun k => ⟨fun ⟨_, mem, _⟩ => (List.not_mem_nil mem).elim, fun _ => rfl⟩
  | cons o rest ih =>
    refine ((applied o ops).trans idem (ih (step o ops))).congr fun k => ?_
    simp

end Applied

/-- The operators that a cascade from `o` with at most `n` operators on a path comes to. -/
def Visits (pr : Preset) : Nat → Op → Op → Prop
  | 0, _, _ => False
  | n + 1, o, k => k = o ∨ ∃ m ∈ modsOf pr o, Visits pr n m k

theorem mem_modsOf (pr : Preset) (m o : Op) : m ∈ modsOf pr o ↔ Edge pr.mods m o := mem_members _ m

theorem Visits.succ {pr : Preset} {n : Nat} {o k : Op} (visits : Visits pr n o k) :
    Visits pr (n + 1) o k := by
  induction n generalizing o with
  | zero => exact visits.elim
  | succ n ih =>
    obtain here | ⟨m, mem, visits⟩ := visits
    · exact .inl here
    · exact .inr ⟨m, mem, ih visits⟩

theorem Visits.path {pr : Preset} {n : Nat} {o k : Op} (visits : Visits pr n o k) :
    ReflTransGen (Edge pr.mods) k o := by
  induction n generalizing o with
  | zero => exact visits.elim
  | succ n ih =>
    obtain rfl | ⟨m, mem, visits⟩ := visits
    · exact .refl
    · exact (ih visits).tail ((mem_modsOf pr m o).mp mem)

/-- What `n` rounds of the closure reach, a cascade with `n + 1` operators on a path visits. -/
theorem visits_of_inSet_reachRounds (pr : Preset) (n : Nat) (set : OpSet) (k : Op)
    (mem : inSet (reachRounds pr n set) k = true) : ∃ o, inSet set o = true ∧ Visits pr (n + 1) o k := by
  induction n generalizing set with
  | zero => exact ⟨k, mem, .inl rfl⟩
  | succ n ih =>
    obtain ⟨m, added, visits⟩ := ih _ mem
    obtain already | ⟨o, target, edge⟩ := (inSet_reachRound pr set m).mp added
    · exact ⟨m, already, visits.succ⟩
    · exact ⟨o, target, .inr ⟨m, (mem_modsOf pr m o).mpr edge, visits⟩⟩

/-- 35 rounds are enough where there is a carrier, since the first round has one operator at least. -/
theorem reachRounds_eq_reach (pr : Preset) (c : Op) (carrier : inSet pr.carriers c = true) :
    reachRounds pr (maxOps - 1) pr.carriers = reach pr := by
  have nonempty (n : Nat) : 1 ≤ reachSize pr n :=
    List.length_pos_of_mem ((mem_members _ c).mpr
      (inSet_reachRounds_mono pr pr.carriers c (Nat.zero_le n) carrier))
  have stays (n : Nat) (same : reachSize pr n - 1 = reachSize pr (n + 1) - 1) :
      reachSize pr (n + 1) - 1 = reachSize pr (n + 2) - 1 := by
    have one := nonempty n
    have two := nonempty (n + 1)
    have fixed := reachRounds_fixed pr n (by omega)
    rw [reachSize, reachSize, reachRounds_succ pr (n + 1), fixed, ← reachRounds_succ, fixed]
  have last : reachSize pr maxOps - 1 = reachSize pr (maxOps - 1) - 1 :=
    Nat.stabilises_of_monotone (f := fun n => reachSize pr n - 1)
      (fun _ _ le => Nat.sub_le_sub_right (reachSize_mono pr le) 1)
      (fun _ => Nat.sub_le_sub_right (length_members_le _) 1) stays (Nat.sub_le _ _)
  have one := nonempty maxOps
  have two := nonempty (maxOps - 1)
  have same : reachSize pr (maxOps - 1) = reachSize pr maxOps := by omega
  exact (reachRounds_fixed pr (maxOps - 1) same).symm

/-- The cascades from the carriers, with 36 operators on a path, come to every operator in `REACH`. -/
theorem visits_iff_inSet_reach (pr : Preset) (k : Op) :
    (∃ c ∈ members pr.carriers, Visits pr maxOps c k) ↔ inSet (reach pr) k = true := by
  constructor
  · rintro ⟨c, carrier, visits⟩
    exact (reachIsPathsToCarriers pr k).mpr ⟨c, (mem_members _ c).mp carrier, visits.path⟩
  · intro reached
    obtain ⟨d, some_carrier, -⟩ := (reachIsPathsToCarriers pr k).mp reached
    rw [← reachRounds_eq_reach pr d some_carrier] at reached
    obtain ⟨c, carrier, visits⟩ := visits_of_inSet_reachRounds pr _ _ k reached
    exact ⟨c, (mem_members _ c).mpr carrier, visits⟩

theorem mapReach_appliedOn (pr : Preset) (f : OpRecord → OpSlot → OpSlot) (ops : Vector OpSlot maxOps) :
    AppliedOn (fun o => f pr.records[o]) (fun k => inSet (reach pr) k = true) ops (mapReach pr f ops) := by
  intro k
  rw [getElem_mapReach]
  exact ⟨fun reached => if_pos reached, fun unreached => if_neg unreached⟩

/-- A cascade that applies an idempotent `f` to each operator it comes to is one application over
`REACH`. -/
theorem foldl_carriers_eq_mapReach (pr : Preset) (f : OpRecord → OpSlot → OpSlot)
    (idem : ∀ r slot, f r (f r slot) = f r slot)
    (cascade : Op → Vector OpSlot maxOps → Vector OpSlot maxOps)
    (applied : ∀ o ops, AppliedOn (fun o => f pr.records[o]) (Visits pr maxOps o) ops (cascade o ops))
    (ops : Vector OpSlot maxOps) :
    (members pr.carriers).foldl (fun acc c => cascade c acc) ops = mapReach pr f ops :=
  ((appliedOn_foldl (fun _ => idem _) applied (members pr.carriers) ops).congr
    (visits_iff_inSet_reach pr)).unique (mapReach_appliedOn pr f ops)

section Cascade

variable (P : OpenParams) (pr : Preset)

/-- A second start keeps the amplitude from which the first armed the attack. -/
theorem startSlot_idem (f : F64) (r : OpRecord) (slot : OpSlot) :
    startSlot P r f (startSlot P r f slot) = startSlot P r f slot := rfl

/-- A released slot is in none of the states that a release leaves. -/
theorem envRelease_idem (r : OpRecord) (e : EnvSlot) :
    envRelease P r (envRelease P r e) = envRelease P r e := by
  obtain ⟨-, armed⟩ | ⟨-, kept⟩ := envRelease_cases P r e
  · rw [armed]
    exact envRelease_of_not_releasable rfl
  · rw [kept, kept]

theorem stopSlot_idem (r : OpRecord) (slot : OpSlot) :
    stopSlot P r (stopSlot P r slot) = stopSlot P r slot :=
  congrArg (fun env => { slot with env := env }) (envRelease_idem P r slot.env)

theorem opStart_appliedOn (f : F64) (n : Nat) (o : Op) (ops : Vector OpSlot maxOps) :
    AppliedOn (fun o => startSlot P pr.records[o] f) (Visits pr n o) ops (opStart P pr f n o ops) := by
  induction n generalizing o ops with
  | zero => exact fun _ => ⟨False.elim, fun _ => rfl⟩
  | succ n ih =>
    have idem := fun k : Op => startSlot_idem P f pr.records[k]
    exact (appliedOn_set _ o ops).trans idem (appliedOn_foldl idem ih (modsOf pr o) _)

theorem opStop_appliedOn (n : Nat) (o : Op) (ops : Vector OpSlot maxOps) :
    AppliedOn (fun o => stopSlot P pr.records[o]) (Visits pr n o) ops (opStop P pr n o ops) := by
  induction n generalizing o ops with
  | zero => exact fun _ => ⟨False.elim, fun _ => rfl⟩
  | succ n ih =>
    have idem := fun k : Op => stopSlot_idem P pr.records[k]
    have cascaded := appliedOn_foldl idem ih (modsOf pr o) ops
    exact (cascaded.trans idem (appliedOn_set _ o _)).congr fun k => or_comm

end Cascade

/-- Settles O22: starting and releasing are idempotent, so each cascade does to the operators it comes to,
which are those of `REACH`, what one start or release does. -/
theorem cascadesEqualOncePerReached : Obligations.CascadesEqualOncePerReached := by
  unfold Obligations.CascadesEqualOncePerReached
  intro P pr f ops
  exact ⟨foldl_carriers_eq_mapReach pr (fun r => startSlot P r f) (startSlot_idem P f) _
      (opStart_appliedOn P pr f maxOps) ops,
    foldl_carriers_eq_mapReach pr (stopSlot P) (stopSlot_idem P) _ (opStop_appliedOn P pr maxOps) ops⟩

/-! ### The slots after a `TICK` (R139, R152, R153) -/

theorem exec_tick (s : State) : exec .tick s = .next (tick openParams s) := rfl

theorem exec_tick_block {s t : State} (run : exec .tick s = .next t) :
    t.block = (tickBlock openParams s.block s.noise).2.1 := by
  rw [exec_tick] at run
  rw [← Host.Outcome.next.inj run, tick, respond_block]

@[simp] theorem deactivateVoice_ops (carriers : OpSet) (vs : VoiceState) :
    (deactivateVoice carriers vs).ops = vs.ops := rfl

@[simp] theorem deactivateVoice_carrierActive (carriers : OpSet) (vs : VoiceState) :
    (deactivateVoice carriers vs).carrierActive = vs.carrierActive := rfl

theorem inSet_recordCarriers_of_not_carrier (carriers : OpSet) (ops : Vector OpSlot maxOps) (old : OpSet)
    (o : Op) (outside : inSet carriers o = false) :
    inSet (recordCarriers carriers ops old) o = inSet old o := by
  rw [recordCarriers, inSet_foldl_recordCarriers, if_neg]
  rw [mem_members, outside]
  exact Bool.false_ne_true

section Sampled

variable (P : OpenParams) (pr : Preset) (vs : VoiceState) (noise : NoiseInput)

/-- The record of R152 after the evaluation of a voice: anew for a carrier, as before for another operator. -/
theorem inSet_voiceSample_carrierActive (o : Op) :
    inSet (voiceSample P pr (evalOrder pr) vs noise).voice.carrierActive o =
      if inSet pr.carriers o then
        slotActive (voiceSample P pr (evalOrder pr) vs noise).voice.ops[o]
      else inSet vs.carrierActive o := by
  cases carrier : inSet pr.carriers o
  case true => exact inSet_recordCarriers _ _ _ o carrier
  case false => exact inSet_recordCarriers_of_not_carrier _ _ _ o carrier

theorem voiceSample_env (acyclic : ¬ Cyclic pr.mods) (o : Op) :
    (voiceSample P pr (evalOrder pr) vs noise).voice.ops[o].env =
      if inSet (reach pr) o then envStep P pr.records[o] vs.ops[o].env else vs.ops[o].env := by
  rw [getElem_voiceSample_ops]
  simp only [mem_evalOrder_iff pr acyclic]
  split <;> rfl

/-- R153: after its evaluation an active voice stays in `ACTIVE` while a carrier's envelope is not IDLE. -/
theorem deactivateVoice_voiceSample_active_iff (active : vs.active = true) :
    (deactivateVoice pr.carriers (voiceSample P pr (evalOrder pr) vs noise).voice).active = true ↔
      ∃ c, inSet pr.carriers c = true ∧
        (voiceSample P pr (evalOrder pr) vs noise).voice.ops[c].env.state ≠ .idle := by
  have still : (voiceSample P pr (evalOrder pr) vs noise).voice.active = true := active
  rw [deactivateVoice_active_iff]
  simp only [still, true_and]
  refine exists_congr fun c => and_congr_right fun carrier => ?_
  rw [inSet_voiceSample_carrierActive, if_pos carrier, slotActive, bne_iff_ne]

end Sampled

/-- Settles O35: a voice after a `TICK` is the evaluated voice after `Deactivate`, and without a cycle
`EVAL_ORDER` evaluates each operator of `REACH` once. -/
theorem tickStepsReachedEnvelopesOnce : Obligations.TickStepsReachedEnvelopesOnce := by
  unfold Obligations.TickStepsReachedEnvelopesOnce
  intro s t acyclic run v
  obtain ⟨noise, after⟩ := getElem_tickBlock_voices openParams s.block s.noise v
  rw [exec_tick_block run, after]
  cases active : s.block.voices[v].active
  case false => exact ⟨fun o => by simp, fun contradiction => (Bool.false_ne_true contradiction).elim⟩
  case true =>
    simp only [if_true, Bool.true_and, deactivateVoice_ops, deactivateVoice_carrierActive]
    refine ⟨voiceSample_env openParams _ _ noise acyclic, fun _ =>
      ⟨fun c carrier => ?_, fun o outside => ?_,
        deactivateVoice_voiceSample_active_iff openParams _ _ noise active⟩⟩
    · exact (inSet_voiceSample_carrierActive openParams _ _ noise c).trans (if_pos carrier)
    · exact (inSet_voiceSample_carrierActive openParams _ _ noise o).trans
        (if_neg (Bool.eq_false_iff.mp outside))

/-! ### The frames of a voice (R139, R152) -/

theorem averageFrames_congr (P : OpenParams) {F G : Vector F64 maxOps} {ops : List Op}
    (same : ∀ m ∈ ops, F[m] = G[m]) : averageFrames P F ops = averageFrames P G ops := by
  cases ops with
  | nil => rfl
  | cons o rest =>
    have sums : rest.foldl (fun acc m => fAdd P acc F[m]) F[o] =
        rest.foldl (fun acc m => fAdd P acc G[m]) G[o] := by
      rw [same o List.mem_cons_self]
      refine List.foldl_ext _ _ _ fun acc m mem => ?_
      rw [same m (List.mem_cons_of_mem o mem)]
    rw [averageFrames, averageFrames, sums]

/-- The modulation of an operator depends on the frames of its modulators alone. -/
theorem modulation_congr (P : OpenParams) (pr : Preset) (o : Op) {F G : Vector F64 maxOps}
    (same : ∀ m, Edge pr.mods m o → F[m] = G[m]) : modulation P pr o F = modulation P pr o G :=
  averageFrames_congr P fun m mem => same m ((mem_modsOf pr m o).mp mem)

/-- The evaluation of an operator records that operator's frame alone. -/
theorem getElem_frame_frames_of_ne (P : OpenParams) (pr : Preset) (t : BitVec 64) (acc : TickAcc)
    {o k : Op} (other : k ≠ o) : (frame P pr t acc o).frames[k] = acc.frames[k] :=
  (getElem_set_fin _ o k _).trans (if_neg other)

theorem getElem_foldl_frame_frames_of_not_mem (P : OpenParams) (pr : Preset) (t : BitVec 64)
    (order : List Op) (acc : TickAcc) {k : Op} (fresh : k ∉ order) :
    (order.foldl (frame P pr t) acc).frames[k] = acc.frames[k] := by
  induction order generalizing acc with
  | nil => rfl
  | cons o rest ih =>
    rw [List.mem_cons, not_or] at fresh
    rw [List.foldl_cons, ih _ fresh.2, getElem_frame_frames_of_ne P pr t acc fresh.1]

section Evaluation

variable (P : OpenParams) (pr : Preset) (vs : VoiceState) (noise : NoiseInput)

/-- The frame of an operator whose slot has not been evaluated yet, and the noise input after it. -/
theorem frame_of_fresh_slot (acc : TickAcc) (o : Op) (slot : acc.ops[o] = vs.ops[o]) :
    (frame P pr vs.elapsed acc o).frames[o] =
        frameFrom P pr vs o (waveAt P pr vs acc.frames o acc.noise).1 ∧
      (frame P pr vs.elapsed acc o).noise = (waveAt P pr vs acc.frames o acc.noise).2 := by
  constructor
  · refine (getElem_set_fin _ o o _).trans ((if_pos rfl).trans ?_)
    rw [slot]
    rfl
  · rw [frame, slot]
    rfl

theorem waveAt_congr (o : Op) {F G : Vector F64 maxOps} (same : ∀ m, Edge pr.mods m o → F[m] = G[m])
    (input : NoiseInput) : waveAt P pr vs F o input = waveAt P pr vs G o input := by
  rw [waveAt, waveAt, modulation_congr P pr o same]

theorem runFrames_append_singleton (before : List Op) (o : Op) :
    runFrames P pr (before ++ [o]) vs noise =
      frame P pr vs.elapsed (runFrames P pr before vs noise) o := by
  rw [runFrames, List.foldl_append]
  rfl

/-- What has been recorded when the operators of `before` have been evaluated is not written again. -/
theorem runFrames_frames_of_split {before after : List Op} {k : Op} (fresh : k ∉ after) :
    (runFrames P pr (before ++ after) vs noise).frames[k] =
      (runFrames P pr before vs noise).frames[k] := by
  rw [runFrames, List.foldl_append]
  exact getElem_foldl_frame_frames_of_not_mem P pr _ after _ fresh

/-- The evaluation of one operator of `EVAL_ORDER`, by the frames of the whole evaluation: its modulators
have been evaluated before it, and none of them is evaluated again. -/
theorem runFrames_evalOrder_split {before after : List Op} {o : Op}
    (order : evalOrder pr = before ++ o :: after) :
    let frames := (runFrames P pr (evalOrder pr) vs noise).frames
    let played := waveAt P pr vs frames o (runFrames P pr before vs noise).noise
    frames[o] = frameFrom P pr vs o played.1 ∧
      (runFrames P pr (before ++ [o]) vs noise).noise = played.2 := by
  intro frames played
  obtain ⟨-, fresh, modulators, -⟩ := evalOrder_split pr before after o order
  have nodup := order ▸ nodup_evalOrder pr
  obtain ⟨before_nodup, rest_nodup, apart⟩ := List.nodup_append.mp nodup
  have final (k : Op) (come : k ∈ before) :
      (runFrames P pr before vs noise).frames[k] = frames[k] := by
    have later : k ∉ o :: after := fun mem => apart k come k mem rfl
    rw [← runFrames_frames_of_split P pr vs noise later, ← order]
  have waves : waveAt P pr vs (runFrames P pr before vs noise).frames o
      (runFrames P pr before vs noise).noise = played :=
    waveAt_congr P pr vs o (fun m edge => final m (modulators m edge)) _
  have slot : (runFrames P pr before vs noise).ops[o] = vs.ops[o] :=
    (getElem_foldl_frame_ops P pr vs.elapsed before before_nodup _ o).trans (if_neg fresh)
  obtain ⟨value, input⟩ := frame_of_fresh_slot P pr vs (runFrames P pr before vs noise) o slot
  rw [waves, ← runFrames_append_singleton] at value input
  have recorded : frames[o] = (runFrames P pr (before ++ [o]) vs noise).frames[o] := by
    have once := runFrames_frames_of_split P pr vs noise (before := before ++ [o])
      (List.nodup_cons.mp rest_nodup).1
    rwa [List.append_assoc, List.singleton_append, ← order] at once
  exact ⟨recorded.trans value, input⟩

/-- The noise input when an operator's turn in `EVAL_ORDER` comes. -/
def noiseInputAt (o : Op) : NoiseInput :=
  (runFrames P pr ((evalOrder pr).takeWhile (· ≠ o)) vs noise).noise

theorem noiseInputAt_of_split {before after : List Op} {o : Op}
    (order : evalOrder pr = before ++ o :: after) :
    noiseInputAt P pr vs noise o = (runFrames P pr before vs noise).noise := by
  obtain ⟨-, fresh, -, -⟩ := evalOrder_split pr before after o order
  have earlier : (evalOrder pr).takeWhile (· ≠ o) = before := by
    rw [order, List.takeWhile_append_of_pos]
    · simp
    · exact fun k come => decide_eq_true fun same : k = o => fresh (same ▸ come)
  rw [noiseInputAt, earlier]

end Evaluation

/-! ### The sample of a voice (R152) -/

/-- A carrier alone, with no modulator, is all there is to evaluate, whatever the other edges are. -/
theorem evalOrder_of_lone_carrier {pr : Preset} {c : Op}
    (lone : ∀ o : Op, inSet pr.carriers o = decide (o = c)) (unmodulated : modSet pr c = 0) :
    ∃ after, evalOrder pr = c :: after := by
  have no_edge (m : Op) : ¬ Edge pr.mods m c := fun edge => by
    have mem := (mem_modsOf pr m c).mpr edge
    rw [modsOf, unmodulated, members_zero] at mem
    exact List.not_mem_nil mem
  have only (o : Op) (reached : inSet (reach pr) o = true) : o = c := by
    obtain ⟨d, carrier, path⟩ := (reachIsPathsToCarriers pr o).mp reached
    obtain rfl : d = c := by simpa [lone] using carrier
    obtain same | ⟨m, -, edge⟩ := path.cases_tail
    · exact same.symm
    · exact (no_edge m edge).elim
  have c_ready : ready pr (reach pr) 0 c = true :=
    (ready_iff _ _ _ _).mpr ⟨inSet_reach_of_carrier pr c (by simp [lone]), inSet_zero c,
      fun m edge => (no_edge m edge).elim⟩
  rw [evalOrder, evalOrderFrom]
  split
  · rename_i stuck
    rw [(nextReady_eq_none _ _ _).mp stuck c] at c_ready
    cases c_ready
  · rename_i o next
    obtain ⟨reached, -⟩ := (ready_iff _ _ _ _).mp (nextReady_eq_some _ _ _ _ next).1
    exact ⟨_, by rw [only o reached]⟩

/-- The sample is the average of the carriers' frames, in any ascending list of the carriers. -/
theorem voiceSample_sample (P : OpenParams) (pr : Preset) (vs : VoiceState) (noise : NoiseInput)
    {carriers : List Op} (ascending : carriers.Pairwise (· < ·))
    (mem : ∀ c : Op, c ∈ carriers ↔ inSet pr.carriers c = true) :
    (voiceSample P pr (evalOrder pr) vs noise).sample =
      averageFrames P (runFrames P pr (evalOrder pr) vs noise).frames carriers := by
  rw [voiceSample, members_eq_of_pairwise ascending mem]

/-- Settles O38: the frames are those of the whole evaluation, and the noise input of an operator is what the
operators before it in `EVAL_ORDER` leave. -/
theorem voiceSampleEvaluatesGraph : Obligations.VoiceSampleEvaluatesGraph := by
  unfold Obligations.VoiceSampleEvaluatesGraph
  constructor
  case left =>
    intro P pr vs noise acyclic
    refine ⟨(runFrames P pr (evalOrder pr) vs noise).frames, noiseInputAt P pr vs noise,
      fun o reached => ?frames, fun o after order => ?first, fun before after o next order => ?next,
      fun before o order => ?last, fun first rest ascending mem => ?sample⟩
    case frames =>
      obtain ⟨before, after, order⟩ := List.append_of_mem ((mem_evalOrder_iff pr acyclic o).mpr reached)
      rw [noiseInputAt_of_split P pr vs noise order]
      exact (runFrames_evalOrder_split P pr vs noise order).1
    case first => exact noiseInputAt_of_split P pr vs noise (before := []) order
    case next =>
      have order_next : evalOrder pr = (before ++ [o]) ++ next :: after := by simpa using order
      rw [noiseInputAt_of_split P pr vs noise order_next, noiseInputAt_of_split P pr vs noise order]
      exact (runFrames_evalOrder_split P pr vs noise order).2
    case last =>
      rw [noiseInputAt_of_split P pr vs noise order,
        ← (runFrames_evalOrder_split P pr vs noise order).2, ← order]
      rfl
    case sample =>
      rw [voiceSample_sample P pr vs noise ascending mem, averageFrames]
  case right =>
    intro P pr c vs noise lone unmodulated
    obtain ⟨after, order⟩ := evalOrder_of_lone_carrier lone unmodulated
    obtain ⟨value, -⟩ := runFrames_evalOrder_split P pr vs noise (before := []) order
    rw [voiceSample_sample P pr vs noise (List.pairwise_singleton _ c) fun o => by simp [lone],
      averageFrames, List.foldl_nil, value, waveAt, modulation_of_no_modulator P unmodulated]
    rfl

end Sys2Proof.Machine

/-! PROOFS. The note events and the gain (R155 to R158): the state in which each of these commands answers
where it is not refused, and the slots of a voice after it. -/

namespace Sys2Proof.Machine

open Sys2Proof

section NoteEvents

variable (P : OpenParams) {a : BitVec 8} {v : Voice} (s : State)

/-! ### The commands that are not refused -/

theorem keyOn_of_accepted (index : voiceOf a = some v) {f : F64} (finite : isFinite f = true)
    (loaded : s.block.active.count ≠ 0) :
    keyOn P a f s = respondOk (setVoice v (startVoice P s.block.active f s.block.voices[v]) s) := by
  simp only [keyOn, index, finite, loaded, Bool.not_true, Bool.false_eq_true, if_false]

theorem keyOff_of_index (index : voiceOf a = some v) :
    keyOff P a s = respondOk (setVoice v (stopVoice P s.block.active s.block.voices[v]) s) := by
  simp only [keyOff, index]

theorem gainCommand_of_finite {x : F64} (finite : isFinite x = true) :
    gainCommand x s = respondOk (setGain (fclamp x posZero f64Ten) s) := if_pos finite

/-! ### A voice after a note event -/

@[simp] theorem startVoice_active (pr : Preset) (f : F64) (vs : VoiceState) :
    (startVoice P pr f vs).active = true := by rw [startVoice]

@[simp] theorem startVoice_elapsed (pr : Preset) (f : F64) (vs : VoiceState) :
    (startVoice P pr f vs).elapsed = if vs.active then vs.elapsed else 0 := by rw [startVoice]

theorem getElem_startVoice_ops (pr : Preset) (f : F64) (vs : VoiceState) (o : Op) :
    (startVoice P pr f vs).ops[o] =
      if inSet (reach pr) o then startSlot P pr.records[o] f vs.ops[o] else vs.ops[o] := by
  rw [startVoice, startOps, getElem_mapReach]

theorem getElem_stopVoice_ops (pr : Preset) (vs : VoiceState) (o : Op) :
    (stopVoice P pr vs).ops[o] =
      if inSet (reach pr) o then stopSlot P pr.records[o] vs.ops[o] else vs.ops[o] := by
  rw [stopVoice, stopOps, getElem_mapReach]

end NoteEvents

/-- A slot that is not reached, or from which no release has an effect (R109), is kept. -/
theorem getElem_stopVoice_ops_eq_releasedSlot (pr : Preset) (vs : VoiceState) (o : Op) :
    (stopVoice openParams pr vs).ops[o] = releasedSlot pr o vs.ops[o] := by
  rw [getElem_stopVoice_ops, releasedSlot]
  simp only [← isReleasable_iff_mem]
  by_cases reached : inSet (reach pr) o = true
  · simp only [reached, true_and, if_true, stopSlot]
    obtain ⟨releasable, armed⟩ | ⟨resting, kept⟩ := envRelease_cases openParams pr.records[o] vs.ops[o].env
    · rw [armed, if_pos releasable]
      rfl
    · rw [kept, if_neg (Bool.eq_false_iff.mp resting)]
  · simp only [reached, false_and, if_false, Bool.false_eq_true]

/-! ### The obligations on the note events and the gain -/

/-- Settles O29: the voice written is the started voice. -/
theorem keyonStartsReachedOperators : Obligations.KeyonStartsReachedOperators := by
  unfold Obligations.KeyonStartsReachedOperators
  intro s a f v index finite loaded
  refine ⟨startVoice openParams s.block.active f s.block.voices[v], ?run, startVoice_active _ _ _ _,
    startVoice_elapsed _ _ _ _, startVoice_carrierActive _ _ _ _,
    getElem_startVoice_ops openParams s.block.active f s.block.voices[v]⟩
  exact congrArg Host.Outcome.next
    (keyOn_of_accepted openParams s ((voiceOf_eq_some a v).mpr index) finite loaded)

/-- Settles O30: the slots written are those of the stopped voice. -/
theorem keyoffReleasesReachedOperators : Obligations.KeyoffReleasesReachedOperators := by
  unfold Obligations.KeyoffReleasesReachedOperators
  intro s a v index
  exact ⟨(stopVoice openParams s.block.active s.block.voices[v]).ops,
    congrArg Host.Outcome.next (keyOff_of_index openParams s ((voiceOf_eq_some a v).mpr index)),
    getElem_stopVoice_ops_eq_releasedSlot s.block.active s.block.voices[v]⟩

/-- Settles O31: every voice written is the voice before, stopped. -/
theorem alloffReleasesEveryVoice : Obligations.AlloffReleasesEveryVoice := by
  unfold Obligations.AlloffReleasesEveryVoice
  intro s
  refine ⟨stopVoices openParams s.block.active s.block.voices, rfl, fun v => ?_⟩
  have stopped : (stopVoices openParams s.block.active s.block.voices)[v] =
      stopVoice openParams s.block.active s.block.voices[v] := getElem_ofFn_fin _ v
  rw [stopped]
  exact ⟨stopVoice_elapsed _ _ _, stopVoice_carrierActive _ _ _, stopVoice_active _ _ _,
    getElem_stopVoice_ops_eq_releasedSlot s.block.active s.block.voices[v]⟩

/-- Settles O33: the clamp is `fclamp` between `+0.0` and `10.0`. -/
theorem setgainClampsGain : Obligations.SetgainClampsGain := by
  unfold Obligations.SetgainClampsGain
  intro s x finite clamped
  exact congrArg Host.Outcome.next (gainCommand_of_finite s finite)

end Sys2Proof.Machine

/-! PROOFS. The sample tick (R150 to R154, R160): the loop over the voices as the loop over the active ones,
what a `TICK` keeps, its independence of the noise input where nothing draws, and the count of ticks after
which a released voice leaves `ACTIVE`. -/

namespace Sys2Proof.Machine

open Sys2Proof

/-! ### The loop over the active voices (R150, R257) -/

section Mix

variable (P : OpenParams) (b : Block) (noise : NoiseInput)

/-- The loop of `TICK` over a list of voices. -/
def mixList (ids : List Voice) : MixAcc :=
  ids.foldl (mixVoice P b.active (evalOrder b.active))
    { voices := b.voices, mix := posZero, noise := noise }

theorem mixVoice_of_inactive (pr : Preset) (order : List Op) (acc : MixAcc) {v : Voice}
    (inactive : acc.voices[v].active = false) : mixVoice P pr order acc v = acc :=
  if_neg (Bool.eq_false_iff.mp inactive)

theorem mixVoice_of_active (pr : Preset) (order : List Op) (acc : MixAcc) {v : Voice}
    (active : acc.voices[v].active = true) :
    mixVoice P pr order acc v =
      { voices := acc.voices.set v.val (voiceSample P pr order acc.voices[v] acc.noise).voice
        mix := fAdd P acc.mix (voiceSample P pr order acc.voices[v] acc.noise).sample
        noise := (voiceSample P pr order acc.voices[v] acc.noise).noise } :=
  if_pos active

/-- The loop deactivates no voice: `Deactivate` comes after it. -/
theorem mixVoice_voices_active (pr : Preset) (order : List Op) (acc : MixAcc) (v w : Voice) :
    (mixVoice P pr order acc v).voices[w].active = acc.voices[w].active := by
  cases active : acc.voices[v].active
  case false => rw [mixVoice_of_inactive P pr order acc active]
  case true =>
    rw [mixVoice_of_active P pr order acc active, getElem_set_fin]
    split
    · rename_i same
      rw [same]
      rfl
    · rfl

/-- The loop passes over the inactive voices. -/
theorem foldl_mixVoice_filter_active (pr : Preset) (order : List Op) (ids : List Voice) (acc : MixAcc) :
    ids.foldl (mixVoice P pr order) acc =
      (ids.filter fun v => acc.voices[v].active).foldl (mixVoice P pr order) acc := by
  induction ids generalizing acc with
  | nil => rfl
  | cons w rest ih =>
    rw [List.foldl_cons, ih]
    simp only [mixVoice_voices_active]
    cases active : acc.voices[w].active
    case false =>
      rw [List.filter_cons_of_neg (p := fun v : Voice => acc.voices[v].active) (by simpa using active),
        mixVoice_of_inactive P pr order acc active]
    case true =>
      rw [List.filter_cons_of_pos (p := fun v : Voice => acc.voices[v].active) active, List.foldl_cons]

/-- The loop over all voices is the loop over any ascending list of the active ones. -/
theorem mixVoices_eq_mixList {actives : List Voice} (ascending : actives.Pairwise (· < ·))
    (mem : ∀ v : Voice, v ∈ actives ↔ b.voices[v].active = true) :
    mixVoices P b.active b.voices noise = mixList P b noise actives := by
  have filtered : (List.finRange numVoices).filter (fun v => b.voices[v].active) = actives :=
    ((List.pairwise_lt_finRange _).filter _).eq_of_mem_iff ascending fun v => by simp [mem]
  rw [mixVoices, foldl_mixVoice_filter_active, filtered, mixList]

theorem mixList_append_singleton (before : List Voice) (v : Voice) :
    mixList P b noise (before ++ [v]) =
      mixVoice P b.active (evalOrder b.active) (mixList P b noise before) v := by
  rw [mixList, List.foldl_append, mixList, List.foldl_cons, List.foldl_nil]

/-- A voice that has not had its turn is as it was. -/
theorem mixList_voices_of_not_mem {ids : List Voice} (nodup : ids.Nodup) {v : Voice} (fresh : v ∉ ids) :
    (mixList P b noise ids).voices[v] = b.voices[v] := by
  obtain ⟨_, kept⟩ := getElem_foldl_mixVoice P b.active (evalOrder b.active) ids nodup
    { voices := b.voices, mix := posZero, noise := noise } v
  exact kept.trans (if_neg fun turn => fresh turn.1)

/-- A voice that has had its turn is not written again. -/
theorem mixList_voices_append {before after : List Voice} (nodup : after.Nodup) {v : Voice}
    (fresh : v ∉ after) :
    (mixList P b noise (before ++ after)).voices[v] = (mixList P b noise before).voices[v] := by
  obtain ⟨_, kept⟩ := getElem_foldl_mixVoice P b.active (evalOrder b.active) after nodup
    (mixList P b noise before) v
  rw [mixList, List.foldl_append]
  exact kept.trans (if_neg fun turn => fresh turn.1)

/-- The turn of an active voice: it is evaluated as it was before the loop. -/
theorem mixList_turn {before : List Voice} {v : Voice} (nodup : before.Nodup) (fresh : v ∉ before)
    (active : b.voices[v].active = true) :
    let played := voiceSample P b.active (evalOrder b.active) b.voices[v] (mixList P b noise before).noise
    mixList P b noise (before ++ [v]) =
      { voices := (mixList P b noise before).voices.set v.val played.voice
        mix := fAdd P (mixList P b noise before).mix played.sample
        noise := played.noise } := by
  have waiting := mixList_voices_of_not_mem P b noise nodup fresh
  rw [mixList_append_singleton, mixVoice_of_active P _ _ _ (by rw [waiting, active]), waiting]

theorem mixOf_append_singleton (before : List Voice) (v : Voice) :
    mixOf P b noise (before ++ [v]) =
      (fAdd P (mixOf P b noise before).1
          (voiceSample P b.active (evalOrder b.active) b.voices[v] (mixOf P b noise before).2).sample,
        (voiceSample P b.active (evalOrder b.active) b.voices[v] (mixOf P b noise before).2).noise) := by
  rw [mixOf, List.foldl_append, mixOf, List.foldl_cons, List.foldl_nil]

/-- The sum and the noise input of the loop do not depend on what the loop writes. -/
theorem mixList_eq_mixOf (ids : List Voice) (nodup : ids.Nodup)
    (active : ∀ v ∈ ids, b.voices[v].active = true) :
    ((mixList P b noise ids).mix, (mixList P b noise ids).noise) = mixOf P b noise ids := by
  induction ids using List.reverseRecOn with
  | nil => rfl
  | append_singleton before v ih =>
    obtain ⟨before_nodup, -, apart⟩ := List.nodup_append.mp nodup
    have fresh : v ∉ before := fun mem => apart v mem v (List.mem_singleton_self v) rfl
    have earlier := ih before_nodup fun w mem => active w (List.mem_append_left _ mem)
    rw [mixList_turn P b noise before_nodup fresh (active v (by simp)), mixOf_append_singleton,
      ← earlier]

/-- Each active voice is left by the loop as its evaluation at its turn leaves it. -/
theorem mixList_voices_of_split {before after : List Voice} {v : Voice}
    (nodup : (before ++ v :: after).Nodup)
    (active : ∀ w ∈ before ++ v :: after, b.voices[w].active = true) :
    (mixList P b noise (before ++ v :: after)).voices[v] =
      (voiceSample P b.active (evalOrder b.active) b.voices[v] (mixOf P b noise before).2).voice := by
  obtain ⟨before_nodup, rest_nodup, apart⟩ := List.nodup_append.mp nodup
  obtain ⟨played, after_nodup⟩ := List.nodup_cons.mp rest_nodup
  have fresh : v ∉ before := fun mem => apart v mem v List.mem_cons_self rfl
  have earlier := mixList_eq_mixOf P b noise before before_nodup fun w mem =>
    active w (List.mem_append_left _ mem)
  rw [List.append_cons, mixList_voices_append P b noise after_nodup played,
    mixList_turn P b noise before_nodup fresh (active v (by simp)), getElem_set_fin, if_pos rfl,
    ← earlier]

end Mix

/-! ### What a `TICK` answers and leaves (R150, R176) -/

section Tick

variable (P : OpenParams) (s : State)

theorem tick_of_mixed {mixed : MixAcc} (loop : mixVoices P s.block.active s.block.voices s.noise = mixed) :
    let out := chainProcess P s.block.chain (fMul P mixed.mix s.block.gain) s.block.filters
    tick P s = respond .ok out.1
      { s with
        block := { s.block with
          voices := deactivate s.block.active.carriers mixed.voices, filters := out.2 }
        noise := mixed.noise } := by
  intro out
  rw [tick, tickBlock, loop]

theorem tick_outbox :
    (tick P s).outbox = s.outbox ++ [responseWord .ok (tickBlock P s.block s.noise).1] := by
  rw [tick, respond_outbox]

theorem tick_inbox : (tick P s).inbox = s.inbox := by rw [tick, respond_inbox]

theorem getElem_deactivate (carriers : OpSet) (voices : Vector VoiceState numVoices) (v : Voice) :
    (deactivate carriers voices)[v] = deactivateVoice carriers voices[v] := getElem_ofFn_fin _ v

theorem deactivate_of_all_inactive (carriers : OpSet) {voices : Vector VoiceState numVoices}
    (silent : ∀ v : Voice, voices[v].active = false) : deactivate carriers voices = voices := by
  refine Vector.ext fun i bound => ?_
  have kept := getElem_deactivate carriers voices ⟨i, bound⟩
  rwa [deactivateVoice_of_inactive _ _ (silent ⟨i, bound⟩)] at kept

theorem tick_of_all_inactive (silent : ∀ v : Voice, s.block.voices[v].active = false) :
    let out := chainProcess P s.block.chain (fMul P posZero s.block.gain) s.block.filters
    tick P s = respond .ok out.1 { s with block.filters := out.2 } := by
  have loop := mixVoices_eq_mixList P s.block s.noise (actives := []) List.Pairwise.nil
    fun v => by rw [silent]; simp
  intro out
  rw [tick_of_mixed P s loop]
  simp only [mixList, List.foldl_nil, deactivate_of_all_inactive _ silent]
  rfl

/-- A `TICK` by an ascending list of the active voices. -/
theorem tick_of_actives {actives : List Voice} (ascending : actives.Pairwise (· < ·))
    (mem : ∀ v : Voice, v ∈ actives ↔ s.block.voices[v].active = true) :
    let mixed := mixOf P s.block s.noise actives
    let out := chainProcess P s.block.chain (fMul P mixed.1 s.block.gain) s.block.filters
    (tick P s).outbox = s.outbox ++ [responseWord .ok out.1] ∧ (tick P s).block.filters = out.2 ∧
      (tick P s).noise = mixed.2 ∧
      ∀ (before after : List Voice) (v : Voice), actives = before ++ v :: after →
        (tick P s).block.voices[v].ops =
          (voiceSample P s.block.active (evalOrder s.block.active) s.block.voices[v]
            (mixOf P s.block s.noise before).2).voice.ops := by
  have active : ∀ v ∈ actives, s.block.voices[v].active = true := fun v => (mem v).mp
  have nodup : actives.Nodup := ascending.imp Fin.ne_of_lt
  have loop := mixVoices_eq_mixList P s.block s.noise ascending mem
  have sums := mixList_eq_mixOf P s.block s.noise actives nodup active
  rw [tick_of_mixed P s loop, ← sums]
  refine ⟨rfl, rfl, rfl, fun before after v split => ?_⟩
  subst split
  rw [respond_block, getElem_deactivate, deactivateVoice_ops,
    mixList_voices_of_split P s.block s.noise nodup active]

end Tick

/-- Settles O36: the loop passes over every voice, and `Deactivate` keeps every one. -/
theorem silentTickRunsChain : Obligations.SilentTickRunsChain := by
  unfold Obligations.SilentTickRunsChain
  intro s silent
  exact congrArg Host.Outcome.next (tick_of_all_inactive openParams s silent)

/-- Settles O37: the loop is the one over the active voices, each evaluated as it was before the loop. -/
theorem tickMixesActiveVoices : Obligations.TickMixesActiveVoices := by
  unfold Obligations.TickMixesActiveVoices
  constructor
  case left =>
    intro s actives ascending mem
    exact ⟨tick openParams s, rfl, tick_of_actives openParams s ascending mem⟩
  case right =>
    intro s v alone
    obtain ⟨answer, filters, noise, slots⟩ := tick_of_actives openParams s
      (List.pairwise_singleton _ v) fun u => by rw [alone, decide_eq_true_iff, List.mem_singleton]
    exact ⟨tick openParams s, rfl, answer, filters, noise, slots [] [] v rfl⟩

/-! ### What a `TICK` keeps -/

section Frame

variable (P : OpenParams) (b : Block) (noise : NoiseInput)

theorem tickBlock_voice_of_inactive {v : Voice} (inactive : b.voices[v].active = false) :
    (tickBlock P b noise).2.1.voices[v] = b.voices[v] := by
  obtain ⟨_, after⟩ := getElem_tickBlock_voices P b noise v
  rw [after, if_neg (Bool.eq_false_iff.mp inactive), deactivateVoice_of_inactive _ _ inactive]

theorem tickBlock_voice_of_active {v : Voice} (active : b.voices[v].active = true) :
    (tickBlock P b noise).2.1.voices[v].elapsed = b.voices[v].elapsed + 1 ∧
      ∀ o : Op, (tickBlock P b noise).2.1.voices[v].ops[o].rate = b.voices[v].ops[o].rate ∧
        (tickBlock P b noise).2.1.voices[v].ops[o].bpMul = b.voices[v].ops[o].bpMul := by
  obtain ⟨input, after⟩ := getElem_tickBlock_voices P b noise v
  rw [after, if_pos active]
  exact ⟨rfl, fun o => voiceSample_rate_bpMul P b.active b.voices[v] input o⟩

theorem tickBlock_unit_of_not_in_chain {k : Fid} (absent : ∀ st ∈ b.chain, st.fid ≠ k) :
    (tickBlock P b noise).2.1.filters[k] = b.filters[k] := by
  refine tickBlock_unit P b noise k (· = b.filters[k]) (fun named => ?_) rfl
  obtain ⟨st, mem, same⟩ := List.mem_map.mp named
  exact absurd same (absent st mem)

theorem historyOf_tickBlock (k : Fid) :
    HistoryOf b.filters[k] (tickBlock P b noise).2.1.filters[k] :=
  tickBlock_unit P b noise k (HistoryOf b.filters[k]) (fun _ _ x => historyOf_filterApply P x)
    ⟨_, _, _, _, rfl⟩

end Frame

/-- Settles O34: the voices and the units are those of `tickBlock`, the rest is not written. -/
theorem tickFrame : Obligations.TickFrame := by
  unfold Obligations.TickFrame
  intro s
  have block : (tick openParams s).block = (tickBlock openParams s.block s.noise).2.1 :=
    exec_tick_block rfl
  refine ⟨tick openParams s, (tickBlock openParams s.block s.noise).1, rfl, tick_outbox _ _,
    tick_inbox _ _, ?_⟩
  rw [block]
  refine ⟨tickBlock_active _ _ _, tickBlock_staged _ _ _, tickBlock_gain _ _ _, tickBlock_chain _ _ _,
    fun v => tickBlock_voice_of_inactive openParams s.block s.noise,
    fun v => tickBlock_voice_of_active openParams s.block s.noise,
    fun k => ⟨tickBlock_unit_of_not_in_chain openParams s.block s.noise, ?_⟩⟩
  obtain ⟨x1, x2, y1, y2, history⟩ := historyOf_tickBlock openParams s.block s.noise k
  rw [history]

/-! ### A `TICK` in which nothing draws (R135, R160)

Each level of the evaluation is the same with another open sequence of draws and another noise input, which
it passes on as it is. -/

section NoNoise

variable (P : OpenParams) (sequence : Nat → F64) (n : NoiseInput)

theorem wave_of_no_noise {kind : BitVec 8} (tonal : kind ≠ 4) (rate modulation phase : F64)
    (t : BitVec 64) (n' : NoiseInput) :
    wave { P with noiseDraw := sequence } kind rate modulation phase t n =
      ((wave P kind rate modulation phase t n').1, n) := by
  unfold wave
  split
  case h_5 noise_kind => exact absurd (BitVec.eq_of_toNat_eq noise_kind) tonal
  all_goals rfl

theorem frame_of_no_noise (pr : Preset) (t : BitVec 64) (acc : TickAcc) {o : Op}
    (tonal : pr.records[o].wave ≠ 4) :
    frame { P with noiseDraw := sequence } pr t { acc with noise := n } o =
      { frame P pr t acc o with noise := n } := by
  unfold frame
  simp only [wave_of_no_noise P sequence n tonal _ _ _ t acc.noise]
  rfl

theorem foldl_frame_of_no_noise (pr : Preset) (t : BitVec 64) (order : List Op)
    (tonal : ∀ o ∈ order, pr.records[o].wave ≠ 4) (acc : TickAcc) :
    order.foldl (frame { P with noiseDraw := sequence } pr t) { acc with noise := n } =
      { order.foldl (frame P pr t) acc with noise := n } := by
  induction order generalizing acc with
  | nil => rfl
  | cons o rest ih =>
    rw [List.foldl_cons, List.foldl_cons,
      frame_of_no_noise P sequence n pr t acc (tonal o List.mem_cons_self)]
    exact ih (fun k mem => tonal k (List.mem_cons_of_mem o mem)) _

theorem voiceSample_of_no_noise (pr : Preset) (order : List Op)
    (tonal : ∀ o ∈ order, pr.records[o].wave ≠ 4) (vs : VoiceState) (n' : NoiseInput) :
    voiceSample { P with noiseDraw := sequence } pr order vs n =
      { voiceSample P pr order vs n' with noise := n } := by
  have evaluated : runFrames { P with noiseDraw := sequence } pr order vs n =
      { runFrames P pr order vs n' with noise := n } :=
    foldl_frame_of_no_noise P sequence n pr vs.elapsed order tonal
      { ops := vs.ops, frames := Vector.replicate maxOps posZero, noise := n' }
  unfold voiceSample
  rw [evaluated]
  rfl

theorem mixVoice_of_no_noise (pr : Preset) (order : List Op)
    (tonal : ∀ o ∈ order, pr.records[o].wave ≠ 4) (acc : MixAcc) (v : Voice) :
    mixVoice { P with noiseDraw := sequence } pr order { acc with noise := n } v =
      { mixVoice P pr order acc v with noise := n } := by
  cases active : acc.voices[v].active
  case false =>
    rw [mixVoice_of_inactive _ pr order { acc with noise := n } active,
      mixVoice_of_inactive P pr order acc active]
  case true =>
    rw [mixVoice_of_active _ pr order { acc with noise := n } active,
      mixVoice_of_active P pr order acc active,
      voiceSample_of_no_noise P sequence n pr order tonal acc.voices[v] acc.noise]
    rfl

theorem foldl_mixVoice_of_no_noise (pr : Preset) (order : List Op)
    (tonal : ∀ o ∈ order, pr.records[o].wave ≠ 4) (ids : List Voice) (acc : MixAcc) :
    ids.foldl (mixVoice { P with noiseDraw := sequence } pr order) { acc with noise := n } =
      { ids.foldl (mixVoice P pr order) acc with noise := n } := by
  induction ids generalizing acc with
  | nil => rfl
  | cons v rest ih =>
    rw [List.foldl_cons, List.foldl_cons, mixVoice_of_no_noise P sequence n pr order tonal acc v]
    exact ih _

theorem mixVoices_of_no_noise (pr : Preset) (tonal : ∀ o ∈ evalOrder pr, pr.records[o].wave ≠ 4)
    (voices : Vector VoiceState numVoices) (n' : NoiseInput) :
    mixVoices { P with noiseDraw := sequence } pr voices n =
      { mixVoices P pr voices n' with noise := n } := by
  rw [mixVoices, mixVoices]
  exact foldl_mixVoice_of_no_noise P sequence n pr (evalOrder pr) tonal _
    { voices := voices, mix := posZero, noise := n' }

theorem chainWalk_noiseDraw (x : F64) (stages : List Stage) (head : Bool) (acc : F64)
    (filters : Vector FilterUnit maxFilters) :
    chainWalk { P with noiseDraw := sequence } x head acc filters stages =
      chainWalk P x head acc filters stages := by
  induction stages generalizing head acc filters with
  | nil => rfl
  | cons st rest ih =>
    rw [chainWalk, ih]
    rfl

/-- No filter draws. -/
theorem chainProcess_noiseDraw (chain : List Stage) (x : F64) (filters : Vector FilterUnit maxFilters) :
    chainProcess { P with noiseDraw := sequence } chain x filters = chainProcess P chain x filters := by
  cases chain with
  | nil => rfl
  | cons st rest => exact chainWalk_noiseDraw P sequence x (st :: rest) true posZero filters

theorem tickBlock_of_no_noise (b : Block) (n' : NoiseInput)
    (tonal : ∀ o ∈ evalOrder b.active, b.active.records[o].wave ≠ 4) :
    tickBlock { P with noiseDraw := sequence } b n =
      ((tickBlock P b n').1, (tickBlock P b n').2.1, n) := by
  rw [tickBlock, tickBlock, mixVoices_of_no_noise P sequence n b.active tonal b.voices n']
  simp only [chainProcess_noiseDraw]
  rfl

end NoNoise

/-- Settles O41: `EVAL_ORDER` lists operators of `REACH` alone, so no evaluation draws. -/
theorem tickWithoutNoiseIsDeterministic : Obligations.TickWithoutNoiseIsDeterministic := by
  unfold Obligations.TickWithoutNoiseIsDeterministic
  intro P sequence b n n' tonal
  have evaluated : ∀ o ∈ evalOrder b.active, b.active.records[o].wave ≠ 4 := fun o mem =>
    tonal o (inSet_reach_of_mem_evalOrder b.active o mem)
  have kept := tickBlock_of_no_noise P P.noiseDraw n b n evaluated
  rw [tickBlock_of_no_noise P sequence n' b n evaluated]
  exact ⟨rfl, rfl, congrArg (fun r => r.2.2) kept⟩

/-! ### The ticks of a released voice (R154) -/

/-- R153 for a lone carrier `c`: the voice is active exactly while that carrier is not IDLE. -/
def ActiveWithCarrier (vs : VoiceState) (c : Op) : Prop :=
  vs.active = true ↔ vs.ops[c].env.state ≠ .idle

section Reclaim

variable {s : State} {v : Voice} {c : Op}

/-- A `TICK` steps the lone carrier: with the voice in `ACTIVE` as R152 says, and else because an IDLE slot
is kept. -/
theorem tick_of_lone_carrier (acyclic : ¬ Cyclic s.block.active.mods)
    (lone : ∀ o : Op, inSet s.block.active.carriers o = decide (o = c))
    (paired : ActiveWithCarrier s.block.voices[v] c) :
    (tick openParams s).block.voices[v].ops[c].env =
        envStep openParams s.block.active.records[c] s.block.voices[v].ops[c].env ∧
      ActiveWithCarrier (tick openParams s).block.voices[v] c := by
  cases active : s.block.voices[v].active
  case false =>
    have idle : s.block.voices[v].ops[c].env.state = .idle :=
      not_not.mp fun sounding => Bool.eq_false_iff.mp active (paired.mpr sounding)
    have kept : (tick openParams s).block.voices[v] = s.block.voices[v] := by
      rw [exec_tick_block (exec_tick s)]
      exact tickBlock_voice_of_inactive openParams s.block s.noise active
    rw [kept, envStep_of_resting (isTimed_eq_false_iff.mpr (.inr idle))]
    exact ⟨rfl, paired⟩
  case true =>
    obtain ⟨stepped, recorded⟩ := tickStepsReachedEnvelopesOnce s _ acyclic (exec_tick s) v
    obtain ⟨-, -, still⟩ := recorded active
    have reached : inSet (reach s.block.active) c = true :=
      inSet_reach_of_carrier s.block.active c (by simp [lone])
    constructor
    · rw [stepped, active, reached, Bool.and_self, if_pos rfl]
    · rw [ActiveWithCarrier, still]
      simp only [lone, decide_eq_true_iff, exists_eq_left]

theorem ticks_active_iff (acyclic : ¬ Cyclic s.block.active.mods)
    (lone : ∀ o : Op, inSet s.block.active.carriers o = decide (o = c))
    (paired : ActiveWithCarrier s.block.voices[v] c) (k : Nat) :
    (ticks openParams k s).block.voices[v].active = true ↔
      (envSteps openParams s.block.active.records[c] k s.block.voices[v].ops[c].env).state ≠ .idle := by
  induction k generalizing s with
  | zero => exact paired
  | succ k ih =>
    obtain ⟨stepped, still⟩ := tick_of_lone_carrier acyclic lone paired
    have preset : (tick openParams s).block.active = s.block.active := by
      rw [exec_tick_block (exec_tick s), tickBlock_active]
    have later := ih (s := tick openParams s) (by rwa [preset]) (by rwa [preset]) still
    rwa [stepped, preset] at later

/-- A `KEYOFF` releases the carrier of an active voice and leaves the voice in `ACTIVE`. -/
theorem keyOff_of_lone_carrier {a : BitVec 8} (index : voiceOf a = some v)
    (carrier : inSet s.block.active.carriers c = true) (active : s.block.voices[v].active = true)
    (releasable : isReleasable s.block.voices[v].ops[c].env.state = true) :
    (keyOff openParams a s).block.voices[v].ops[c].env =
        envArm openParams s.block.active.records[c] .release s.block.voices[v].ops[c].env ∧
      ActiveWithCarrier (keyOff openParams a s).block.voices[v] c := by
  have voice : (keyOff openParams a s).block.voices[v] =
      stopVoice openParams s.block.active s.block.voices[v] := by
    rw [keyOff_of_index openParams s index, respondOk_block, setVoice_voices, getElem_set_fin, if_pos rfl]
  have armed : (stopVoice openParams s.block.active s.block.voices[v]).ops[c].env =
      envArm openParams s.block.active.records[c] .release s.block.voices[v].ops[c].env := by
    rw [getElem_stopVoice_ops, if_pos (inSet_reach_of_carrier s.block.active c carrier)]
    exact envRelease_of_releasable releasable
  rw [voice, ActiveWithCarrier, stopVoice_active, armed]
  exact ⟨rfl, fun _ => nofun, fun _ => active⟩

end Reclaim

/-- Settles O43: the voice is active while its carrier, stepped by each `TICK`, has not run through RELEASE and
PRE_IDLE. -/
theorem voiceReclaimedAfterExactCount : Obligations.VoiceReclaimedAfterExactCount := by
  unfold Obligations.VoiceReclaimedAfterExactCount
  intro s s' a v c names acyclic lone active releasable run k
  have index : voiceOf a = some v := (voiceOf_eq_some a v).mpr names
  obtain rfl : keyOff openParams a s = s' := Host.Outcome.next.inj run
  obtain ⟨armed, paired⟩ := keyOff_of_lone_carrier index (by simp [lone]) active releasable
  have preset : (keyOff openParams a s).block.active = s.block.active := by
    rw [keyOff_of_index openParams s index, respondOk_block, setVoice_active]
  have sounding := ticks_active_iff (by rwa [preset]) (by rwa [preset]) paired k
  rw [preset, armed, Ne, envArm_release_idle_iff, Nat.not_le] at sounding
  refine congrArg Host.Outcome.next ((voiceActive_of_index _ index).trans ?_)
  simp only [sounding]
  rfl

end Sys2Proof.Machine

/-! PROOFS. The filter chain (R170 to R176): the state in which each of its commands answers where it is not
refused, the stages of the chain it writes, and what a chain computes stage after stage. -/

namespace Sys2Proof.Machine

open Sys2Proof

/-! ### The commands that are not refused (R171 to R174) -/

section ChainCommands

variable (P : OpenParams) {a b : BitVec 8} {i j : Fid} (s : State)

theorem chainAddCommand_of_index (mode : ChainMode) (index : fidOf P a = some i) :
    chainAddCommand P mode a s = respondOk (setChain (chainAdd mode i s.block.chain) s) := by
  simp only [chainAddCommand, index]

theorem chainRemoveCommand_of_index (index : fidOf P a = some i) :
    chainRemoveCommand P a s = respondOk (setChain (chainRemove i s.block.chain) s) := by
  simp only [chainRemoveCommand, index]

theorem chainSwapCommand_of_indices (first : fidOf P a = some i) (second : fidOf P b = some j) :
    chainSwapCommand P a b s = respondOk (setChain (chainExchange i j s.block.chain) s) := by
  simp only [chainSwapCommand, first, second]

end ChainCommands

section Chain

variable {chain : List Stage} {i j : Fid}

/-! ### A stage appended and a stage deleted (R171 to R173) -/

theorem chainAdd_of_absent (mode : ChainMode) (absent : ∀ st ∈ chain, st.fid ≠ i) :
    chainAdd mode i chain = chain ++ [{ mode := mode, fid := i }] :=
  if_neg fun present =>
    have ⟨st, mem, names⟩ := (inChain_iff chain i).mp present
    absent st mem names

theorem chainAdd_of_present (mode : ChainMode) (present : ∃ st ∈ chain, st.fid = i) :
    chainAdd mode i chain = chain := if_pos ((inChain_iff chain i).mpr present)

theorem chainRemove_sublist (i : Fid) (chain : List Stage) : (chainRemove i chain).Sublist chain :=
  List.filter_sublist

/-- Where no id occurs twice, the ids that a deletion leaves are those before without the one deleted. -/
theorem map_fid_chainRemove (nodup : (chain.map Stage.fid).Nodup) :
    (chainRemove i chain).map Stage.fid = (chain.map Stage.fid).erase i := by
  rw [nodup.erase_eq_filter, List.filter_map]
  rfl

theorem length_chainRemove (nodup : (chain.map Stage.fid).Nodup) :
    (chainRemove i chain).length = chain.length - if ∃ st ∈ chain, st.fid = i then 1 else 0 := by
  have ids := congrArg List.length (map_fid_chainRemove (i := i) nodup)
  rw [List.length_erase, List.length_map, List.length_map] at ids
  simp only [List.mem_map] at ids
  rw [ids]
  split <;> rfl

/-! ### The exchange of two stages (R174) -/

theorem getElem?_exchangeAt {p q : Nat} {sp sq : Stage} (first : chain[p]? = some sp)
    (second : chain[q]? = some sq) (k : Nat) :
    (exchangeAt p q chain)[k]? = if k = q then some sp else if k = p then some sq else chain[k]? := by
  obtain ⟨p_lt, -⟩ := List.getElem?_eq_some_iff.mp first
  obtain ⟨q_lt, -⟩ := List.getElem?_eq_some_iff.mp second
  have exchanged : exchangeAt p q chain = (chain.set p sq).set q sp := by
    simp only [exchangeAt, first, second]
  rw [exchanged, List.getElem?_set, List.getElem?_set, List.length_set, if_pos q_lt, if_pos p_lt]
  simp only [eq_comm]

theorem exchangeAt_self (p : Nat) (chain : List Stage) : exchangeAt p p chain = chain := by
  refine List.ext_getElem? fun k => ?_
  cases stage : chain[p]? with
  | none => simp only [exchangeAt, stage]
  | some sp =>
    rw [getElem?_exchangeAt stage stage]
    split
    next here => rw [here, stage]
    next => rfl

/-- Where no id occurs twice, a stage stands at the position of its id. -/
theorem chainPosition_of_getElem? (nodup : (chain.map Stage.fid).Nodup) {p : Nat} {sp : Stage}
    (stage : chain[p]? = some sp) : chainPosition chain sp.fid = some p := by
  obtain ⟨p_lt, rfl⟩ := List.getElem?_eq_some_iff.mp stage
  refine List.findIdx?_eq_some_iff_getElem.mpr ⟨p_lt, beq_self_eq_true _, fun k earlier same => ?_⟩
  have ids : (chain.map Stage.fid)[k]'(by rw [List.length_map]; omega) =
      (chain.map Stage.fid)[p]'(by rwa [List.length_map]) := by
    rw [List.getElem_map, List.getElem_map]
    exact beq_iff_eq.mp same
  exact absurd (nodup.getElem_inj_iff.mp ids) earlier.ne

theorem chainPosition_of_absent (absent : ∀ st ∈ chain, st.fid ≠ i) : chainPosition chain i = none :=
  List.findIdx?_eq_none_iff.mpr fun st mem => beq_false_of_ne (absent st mem)

theorem chainExchange_of_positions {p q : Nat} (first : chainPosition chain i = some p)
    (second : chainPosition chain j = some q) : chainExchange i j chain = exchangeAt p q chain := by
  simp only [chainExchange, first, second]

theorem chainExchange_of_absent
    (absent : (∀ st ∈ chain, st.fid ≠ i) ∨ ∀ st ∈ chain, st.fid ≠ j) :
    chainExchange i j chain = chain := by
  obtain absent | absent := absent
  · simp only [chainExchange, chainPosition_of_absent absent]
  · cases position : chainPosition chain i with
    | none => simp only [chainExchange, position]
    | some p => simp only [chainExchange, position, chainPosition_of_absent absent]

theorem chainExchange_self (i : Fid) (chain : List Stage) : chainExchange i i chain = chain := by
  cases position : chainPosition chain i with
  | none => simp only [chainExchange, position]
  | some p => rw [chainExchange_of_positions position position, exchangeAt_self]

end Chain

/-! ### What a chain computes (R176) -/

section Process

variable (P : OpenParams) (x : F64) (fus : Vector FilterUnit maxFilters)

/-- The walk over a chain in two parts; the second part holds the head only where the first is empty. -/
theorem chainWalk_append (head : Bool) (acc : F64) (before after : List Stage) :
    chainWalk P x head acc fus (before ++ after) =
      chainWalk P x (head && before.isEmpty) (chainWalk P x head acc fus before).1
        (chainWalk P x head acc fus before).2 after := by
  induction before generalizing head acc fus with
  | nil => rw [List.isEmpty_nil, Bool.and_true]; rfl
  | cons st rest ih =>
    rw [List.cons_append, chainWalk, chainWalk, ih, List.isEmpty_cons, Bool.and_false, Bool.false_and]

theorem chainProcess_singleton (st : Stage) :
    chainProcess P [st] x fus =
      ((stageApply P x posZero true st.mode fus[st.fid]).1,
        fus.set st.fid.val (stageApply P x posZero true st.mode fus[st.fid]).2) := rfl

/-- A stage after others takes the value and the units that they leave. -/
theorem chainProcess_append_singleton {chain : List Stage} (others : chain ≠ []) (st : Stage) :
    let before := chainProcess P chain x fus
    let out := stageApply P x before.1 false st.mode before.2[st.fid]
    chainProcess P (chain ++ [st]) x fus = (out.1, before.2.set st.fid.val out.2) := by
  cases chain with
  | nil => exact absurd rfl others
  | cons first rest => exact chainWalk_append P x fus true posZero (first :: rest) [st]

end Process

/-! ### The obligations on the chain -/

/-- Settles O49: the chain written is the chain before, with the stage where its unit was absent. -/
theorem chainAddAppendsOnce : Obligations.ChainAddAppendsOnce := by
  unfold Obligations.ChainAddAppendsOnce
  intro s a i names inRange
  have index : fidOf openParams a = some i := (fidOf_eq_some openParams a i).mpr ⟨names, inRange⟩
  have sum := chainAddCommand_of_index openParams s .sum index
  have link := chainAddCommand_of_index openParams s .link index
  constructor
  · intro absent
    rw [chainAdd_of_absent _ absent] at sum link
    exact ⟨congrArg Host.Outcome.next sum, congrArg Host.Outcome.next link⟩
  · intro present
    rw [chainAdd_of_present _ present] at sum link
    exact ⟨congrArg Host.Outcome.next sum, congrArg Host.Outcome.next link⟩

/-- Settles O50: the chain written is the chain before without the stages of the unit, of which there is one
at most where no id occurs twice. -/
theorem chainRemoveAndClear : Obligations.ChainRemoveAndClear := by
  unfold Obligations.ChainRemoveAndClear
  refine ⟨fun s a i names inRange => ?_, fun s => rfl⟩
  have index : fidOf openParams a = some i := (fidOf_eq_some openParams a i).mpr ⟨names, inRange⟩
  exact ⟨chainRemove i s.block.chain,
    congrArg Host.Outcome.next (chainRemoveCommand_of_index openParams s index),
    mem_chainRemove i s.block.chain, chainRemove_sublist i s.block.chain, length_chainRemove⟩

/-- Settles O51: where no id occurs twice, the positions of the two units are those of their stages. -/
theorem chainSwapExchangesPairs : Obligations.ChainSwapExchangesPairs := by
  unfold Obligations.ChainSwapExchangesPairs
  intro s a b i j names_a names_b i_inRange j_inRange nodup
  have first : fidOf openParams a = some i := (fidOf_eq_some openParams a i).mpr ⟨names_a, i_inRange⟩
  have second : fidOf openParams b = some j := (fidOf_eq_some openParams b j).mpr ⟨names_b, j_inRange⟩
  refine ⟨chainExchange i j s.block.chain,
    congrArg Host.Outcome.next (chainSwapCommand_of_indices openParams s first second), ?exchanged, ?kept⟩
  case exchanged =>
    rintro p q sp sq at_p at_q rfl rfl
    have stage := getElem?_exchangeAt at_p at_q
    rw [chainExchange_of_positions (chainPosition_of_getElem? nodup at_p)
      (chainPosition_of_getElem? nodup at_q)]
    refine ⟨(exchangeAt_perm p q s.block.chain).length_eq, ?_, ?_, fun k not_p not_q => ?_⟩
    · rw [stage, if_pos rfl, ← at_p, ← at_q]
      split
      next same => rw [same]
      next => rfl
    · rw [stage, if_pos rfl]
    · rw [stage, if_neg not_q, if_neg not_p]
  case kept =>
    rintro (absent | absent | rfl)
    · exact chainExchange_of_absent (.inl absent)
    · exact chainExchange_of_absent (.inr absent)
    · exact chainExchange_self i s.block.chain

/-- Settles O52: the first stage starts the walk, and each later one goes on from the walk before it. -/
theorem chainComposition : Obligations.ChainComposition := by
  unfold Obligations.ChainComposition
  intro P x fus
  refine ⟨rfl, fun i => ⟨?link, ?sum⟩, fun chain i others => ⟨?laterSum, ?laterLink⟩⟩
  case link => exact chainProcess_singleton P x fus ⟨.link, i⟩
  case sum => exact chainProcess_singleton P x fus ⟨.sum, i⟩
  case laterSum => exact chainProcess_append_singleton P x fus others ⟨.sum, i⟩
  case laterLink => exact chainProcess_append_singleton P x fus others ⟨.link, i⟩

end Sys2Proof.Machine

/-! PROOFS. The neutral filter (R177): rounding keeps an exact value, so the product with 1.0, the sum with a
zero and the difference of a zero keep a finite value, but that `-0.0` and `+0.0` add up to `+0.0`. -/

namespace Sys2Proof.Machine

open Sys2Proof

/-! ### A value is its sign and its magnitude, and an exact value is not rounded (R14, R64) -/

theorem ofSignMagnitude_self (x : F64) : ofSignMagnitude (signOf x) (magnitudeOf x) = x := by
  apply BitVec.eq_of_toNat_eq
  rw [toNat_ofSignMagnitude _ _ (magnitudeOf_lt x), signOf, BitVec.msb_eq_decide, magnitudeOf]
  have bound := x.isLt
  simp only [decide_eq_true_iff]
  split <;> omega

theorem roundMagnitude_of_exact (m den : Nat) (pos : 0 < den) (bound : m ≤ infMagnitude) :
    roundMagnitude (magnitudeUnits m * den) den = m := by
  obtain ⟨low, below, above, choice⟩ := roundMagnitude_neighbours (magnitudeUnits m * den) den pos
  obtain rfl : low = m := by
    have lower := magnitudeUnits_strictMono.le_iff_le.mp (Nat.le_of_mul_le_mul_right below pos)
    have upper := magnitudeUnits_strictMono.lt_iff_lt.mp (Nat.lt_of_mul_lt_mul_right above)
    omega
  have down : ¬ RoundsUp (magnitudeUnits low * den) den low := by
    have := magnitudeUnits_mul_lt pos (Nat.lt_succ_self low)
    rw [RoundsUp, Nat.add_mul]
    omega
  obtain ⟨up, -⟩ | ⟨-, rounded⟩ := choice
  · exact absurd up down
  · rw [rounded, Nat.min_eq_left bound]

theorem roundUnits_of_exact {x : F64} (finite : isFinite x = true) (den : Nat) (pos : 0 < den) :
    roundUnits (signOf x) (unitsOf x * den) den = x := by
  rw [roundUnits, unitsOf_eq,
    roundMagnitude_of_exact _ den pos ((isFinite_iff x).mp finite).le, ofSignMagnitude_self]

theorem unitsOf_eq_zero_iff (x : F64) : unitsOf x = 0 ↔ isZero x = true := by
  rw [unitsOf_eq, isZero_iff]
  exact magnitudeUnits_strictMono.injective.eq_iff (b := 0)

/-! ### The neutral operands -/

section Neutral

variable (P : OpenParams) {x z : F64}

theorem addFinite_of_isZero_right (finite : isFinite x = true) (zero : isZero z = true) :
    addFinite x z = if isZero x then ofSignMagnitude (signOf x && signOf z) 0 else x := by
  have nothing : signedUnitsOf z = 0 := by
    simp [signedUnitsOf, (unitsOf_eq_zero_iff z).mpr zero]
  have vanishes : signedUnitsOf x = 0 ↔ isZero x = true := by
    rw [← unitsOf_eq_zero_iff, signedUnitsOf]
    split <;> omega
  rw [addFinite, nothing, add_zero]
  by_cases zx : isZero x = true
  · rw [if_pos (vanishes.mpr zx), if_pos zx]
  · have size : (signedUnitsOf x).natAbs = unitsOf x * 1 := by
      rw [signedUnitsOf]
      split <;> omega
    have sign : decide (signedUnitsOf x < 0) = signOf x := by
      have nonzero := mt (unitsOf_eq_zero_iff x).mp zx
      rw [signedUnitsOf]
      cases signOf x with
      | true => simp; omega
      | false => simp
    rw [if_neg (mt vanishes.mp zx), if_neg zx, size, sign, roundUnits_of_exact finite 1 one_pos]

theorem fMul_one_left (finite : isFinite x = true) : fMul P f64One x = x := by
  have one : unitsOf f64One = unitsPerOne := by decide +kernel
  have sign : (signOf f64One != signOf x) = signOf x := Bool.false_bne _
  rw [fMul_finite P f64One x (by decide) finite, one, sign, Nat.mul_comm,
    roundUnits_of_exact finite unitsPerOne unitsPerOne_pos]

theorem fMul_posZero_posZero : fMul P posZero posZero = posZero := by
  have nothing : unitsOf posZero = 0 := (unitsOf_eq_zero_iff posZero).mpr (by decide)
  rw [fMul_finite P posZero posZero (by decide) (by decide), nothing, zero_mul, roundUnits,
    roundMagnitude_zero]
  decide

/-- The sign of a zero alone tells the two zeros apart. -/
theorem isZero_cases (zero : isZero x = true) : x = posZero ∨ x = 0x8000000000000000#64 := by
  rw [← ofSignMagnitude_self x, (isZero_iff x).mp zero]
  cases signOf x
  · exact .inl (by decide)
  · exact .inr (by decide)

theorem fAdd_posZero (finite : isFinite x = true) :
    fAdd P x posZero = if x = 0x8000000000000000#64 then posZero else x := by
  rw [fAdd, addWith_finite P .add x posZero posZero finite (by decide),
    addFinite_of_isZero_right finite (by decide)]
  cases zero : isZero x with
  | true => obtain rfl | rfl := isZero_cases zero <;> decide
  | false =>
    have nonzero : x ≠ 0x8000000000000000#64 := by rintro rfl; exact absurd zero (by decide)
    rw [if_neg Bool.false_ne_true, if_neg nonzero]

theorem fSub_posZero (finite : isFinite x = true) : fSub P x posZero = x := by
  rw [fSub, addWith_finite P .sub x (fNeg posZero) posZero finite (by decide),
    addFinite_of_isZero_right finite (by decide)]
  cases zero : isZero x with
  | true => obtain rfl | rfl := isZero_cases zero <;> decide
  | false => rw [if_neg Bool.false_ne_true]

end Neutral

/-! ### A neutral filter unit (R177, R192) -/

/-- The coefficients `b0 = 1.0` and the others `+0.0`, and a zero history. -/
structure NeutralBiquad (u : FilterUnit) : Prop where
  b0 : u.b0 = f64One
  b1 : u.b1 = posZero
  b2 : u.b2 = posZero
  a1 : u.a1 = posZero
  a2 : u.a2 = posZero
  x1 : u.x1 = posZero
  x2 : u.x2 = posZero
  y1 : u.y1 = posZero
  y2 : u.y2 = posZero

/-- The four products of the neutral coefficients and the history are `+0.0`: the first one added takes `-0.0`
to `+0.0`, and the other three change nothing. -/
theorem biquadOutput_of_neutral (P : OpenParams) {u : FilterUnit} (neutral : NeutralBiquad u) {x : F64}
    (finite : isFinite x = true) :
    biquadOutput P u x = if x = 0x8000000000000000#64 then posZero else x := by
  have products : biquadOutput P u x =
      fSub P (fSub P (fAdd P (fAdd P x posZero) posZero) posZero) posZero := by
    rw [biquadOutput, neutral.b0, neutral.b1, neutral.b2, neutral.a1, neutral.a2, neutral.x1, neutral.x2,
      neutral.y1, neutral.y2, fMul_one_left P finite, fMul_posZero_posZero]
  have settled (y : F64) (fy : isFinite y = true) (notNegative : y ≠ 0x8000000000000000#64) :
      fSub P (fSub P (fAdd P y posZero) posZero) posZero = y := by
    rw [fAdd_posZero P fy, if_neg notNegative, fSub_posZero P fy, fSub_posZero P fy]
  rw [products, fAdd_posZero P finite]
  split
  next => exact settled posZero (by decide) (by decide)
  next notNegative => exact settled x finite notNegative

theorem filterApply_of_biquad (P : OpenParams) {u : FilterUnit} (biquad : u.kind ≠ .distortion) (x : F64) :
    filterApply P u x = biquadStep P u x := by
  unfold filterApply
  split
  next => rfl
  next => rfl
  next => rfl
  next distortion => exact absurd distortion biquad

/-- Settles O53: the chain gives the output of the neutral unit. -/
theorem neutralChainIsIdentity : Obligations.NeutralChainIsIdentity := by
  unfold Obligations.NeutralChainIsIdentity
  refine fun P x i fus => ⟨rfl, fun biquad b0 b1 b2 a1 a2 x1 x2 y1 y2 finite => ?_⟩
  have output : (chainProcess P [⟨.link, i⟩] x fus).1 = (filterApply P fus[i] x).1 :=
    congrArg Prod.fst (chainProcess_singleton P x fus ⟨.link, i⟩)
  rw [output, filterApply_of_biquad P biquad]
  exact biquadOutput_of_neutral P ⟨b0, b1, b2, a1, a2, x1, x2, y1, y2⟩ finite

end Sys2Proof.Machine

/-! PROOFS. The filter units (R186 to R192): what the coefficient update and a parameter write make of a unit,
the state in which `FCFG` and `FPARAM` answer where they are not refused, and the step of each kind. -/

namespace Sys2Proof.Machine

open Sys2Proof

/-! ### The codes of kinds and parameters (R89) -/

/-- The kind code of `FCFG` that names a kind, which `kindOf` reads back. -/
def kindCode : FilterKind → Nat
  | .lowPass => 0
  | .highPass => 1
  | .bandPass => 2
  | .distortion => 3

/-- The selector of `FPARAM` that names a parameter, which `filterParamOf` reads back. -/
def paramSelector : FilterParam → BitVec 8
  | .ffs => 0
  | .ffreq => 1
  | .fq => 2
  | .flevel => 3

section Codes

variable {b : BitVec 8} {k : FilterKind} {p : FilterParam}

theorem kindOf_eq_some (b : BitVec 8) (k : FilterKind) : kindOf b = some k ↔ b.toNat = kindCode k := by
  cases k <;> revert b <;> decide

theorem filterParamOf_eq_some (b : BitVec 8) (p : FilterParam) :
    filterParamOf b = some p ↔ b = paramSelector p := by
  cases p <;> revert b <;> decide

theorem kindOf_of_lt (inTable : b.toNat < 4) : ∃ k, kindOf b = some k :=
  Option.ne_none_iff_exists'.mp (mt (kindOf_eq_none b).mp (Nat.not_le.mpr inTable))

theorem filterParamOf_of_lt (inTable : b.toNat < 4) : ∃ p, filterParamOf b = some p :=
  Option.ne_none_iff_exists'.mp (mt (filterParamOf_eq_none b).mp (Nat.not_le.mpr inTable))

/-- A kind code names one kind. -/
theorem toNat_eq_kindCode_iff (code : kindOf b = some k) (k' : FilterKind) :
    b.toNat = kindCode k' ↔ k = k' := by
  rw [← kindOf_eq_some, code, Option.some_inj]

/-- A selector names one parameter. -/
theorem eq_paramSelector_iff (code : filterParamOf b = some p) (q : FilterParam) :
    b = paramSelector q ↔ p = q := by
  rw [← filterParamOf_eq_some, code, Option.some_inj]

theorem filterOperandOk_iff (p : FilterParam) (x : F64) :
    filterOperandOk p x = true ↔ isFinite x = true ∧ (p = .ffs → fLt posZero x = true) := by
  cases p <;> simp [filterOperandOk]

end Codes

/-! ### The coefficients of a unit (R188) -/

/-- The unit `u'` has the coefficients of `u`. -/
def SameCoefficients (u u' : FilterUnit) : Prop :=
  u'.b0 = u.b0 ∧ u'.b1 = u.b1 ∧ u'.b2 = u.b2 ∧ u'.a1 = u.a1 ∧ u'.a2 = u.a2

theorem SameCoefficients.refl (u : FilterUnit) : SameCoefficients u u := ⟨rfl, rfl, rfl, rfl, rfl⟩

section Coefficients

variable (P : OpenParams)

@[simp] theorem coefUpdate_kind (u : FilterUnit) : (coefUpdate P u).kind = u.kind := by
  rw [coefUpdate_frame]

@[simp] theorem coefUpdate_x1 (u : FilterUnit) : (coefUpdate P u).x1 = u.x1 := by
  rw [coefUpdate_frame]

@[simp] theorem coefUpdate_x2 (u : FilterUnit) : (coefUpdate P u).x2 = u.x2 := by
  rw [coefUpdate_frame]

@[simp] theorem coefUpdate_y1 (u : FilterUnit) : (coefUpdate P u).y1 = u.y1 := by
  rw [coefUpdate_frame]

@[simp] theorem coefUpdate_y2 (u : FilterUnit) : (coefUpdate P u).y2 = u.y2 := by
  rw [coefUpdate_frame]

@[simp] theorem coefUpdate_ffs (u : FilterUnit) : (coefUpdate P u).ffs = u.ffs := by
  rw [coefUpdate_frame]

@[simp] theorem coefUpdate_ffreq (u : FilterUnit) : (coefUpdate P u).ffreq = u.ffreq := by
  rw [coefUpdate_frame]

@[simp] theorem coefUpdate_fq (u : FilterUnit) : (coefUpdate P u).fq = u.fq := by
  rw [coefUpdate_frame]

@[simp] theorem coefUpdate_flevel (u : FilterUnit) : (coefUpdate P u).flevel = u.flevel := by
  rw [coefUpdate_frame]

variable {u : FilterUnit}

theorem coefUpdate_of_biquad (biquad : u.kind ≠ .distortion) : coefUpdate P u = biquadCoefficients P u := by
  unfold coefUpdate
  split
  next => rfl
  next => rfl
  next => rfl
  next distortion => exact absurd distortion biquad

theorem coefUpdate_of_distortion (distortion : u.kind = .distortion) : coefUpdate P u = u := by
  simp only [coefUpdate, distortion]

/-- The three numerators are those of the kind, each over the common `a0`. -/
theorem hasCoefficients_biquadCoefficients (u : FilterUnit) : HasCoefficients P (biquadCoefficients P u) := by
  refine ⟨rfl, rfl, fun lowPass => ?_, fun highPass => ?_, fun bandPass => ?_⟩
  · have kind : u.kind = .lowPass := lowPass
    simp only [biquadCoefficients, kind]
    exact ⟨rfl, rfl, rfl⟩
  · have kind : u.kind = .highPass := highPass
    simp only [biquadCoefficients, kind]
    exact ⟨rfl, rfl, rfl⟩
  · have kind : u.kind = .bandPass := bandPass
    simp only [biquadCoefficients, kind]
    exact ⟨rfl, rfl, rfl⟩

theorem hasCoefficients_coefUpdate (biquad : u.kind ≠ .distortion) : HasCoefficients P (coefUpdate P u) := by
  rw [coefUpdate_of_biquad P biquad]
  exact hasCoefficients_biquadCoefficients P u

theorem sameCoefficients_coefUpdate (distortion : u.kind = .distortion) :
    SameCoefficients u (coefUpdate P u) := by
  rw [coefUpdate_of_distortion P distortion]
  exact SameCoefficients.refl u

end Coefficients

/-! ### A parameter written (R187) -/

section Store

variable (P : OpenParams) (p : FilterParam) (x : F64) (u : FilterUnit)

@[simp] theorem storeParam_kind : (storeParam P p x u).kind = u.kind := by rw [storeParam_frame]

@[simp] theorem storeParam_x1 : (storeParam P p x u).x1 = u.x1 := by rw [storeParam_frame]

@[simp] theorem storeParam_x2 : (storeParam P p x u).x2 = u.x2 := by rw [storeParam_frame]

@[simp] theorem storeParam_y1 : (storeParam P p x u).y1 = u.y1 := by rw [storeParam_frame]

@[simp] theorem storeParam_y2 : (storeParam P p x u).y2 = u.y2 := by rw [storeParam_frame]

theorem storeParam_ffs : (storeParam P p x u).ffs = if p = .ffs then x else u.ffs := by
  cases p <;> simp [storeParam]

theorem storeParam_ffreq : (storeParam P p x u).ffreq = if p = .ffreq then x else u.ffreq := by
  cases p <;> simp [storeParam]

theorem storeParam_fq :
    (storeParam P p x u).fq = if p = .fq then fclamp x (qMin P) (qMax P) else u.fq := by
  cases p <;> simp [storeParam]

theorem storeParam_flevel :
    (storeParam P p x u).flevel = if p = .flevel then fclamp x posZero f64Five else u.flevel := by
  cases p <;> simp [storeParam]

variable {p u}

theorem hasCoefficients_storeParam (recomputed : p ≠ .flevel) (biquad : u.kind ≠ .distortion) :
    HasCoefficients P (storeParam P p x u) := by
  cases p with
  | flevel => exact absurd rfl recomputed
  | ffs => exact hasCoefficients_coefUpdate P (u := { u with ffs := x }) biquad
  | ffreq => exact hasCoefficients_coefUpdate P (u := { u with ffreq := x }) biquad
  | fq => exact hasCoefficients_coefUpdate P (u := { u with fq := fclamp x (qMin P) (qMax P) }) biquad

theorem sameCoefficients_storeParam (kept : p = .flevel ∨ u.kind = .distortion) :
    SameCoefficients u (storeParam P p x u) := by
  cases p with
  | flevel => exact SameCoefficients.refl u
  | ffs =>
    have distortion := kept.resolve_left (by decide)
    exact sameCoefficients_coefUpdate P (u := { u with ffs := x }) distortion
  | ffreq =>
    have distortion := kept.resolve_left (by decide)
    exact sameCoefficients_coefUpdate P (u := { u with ffreq := x }) distortion
  | fq =>
    have distortion := kept.resolve_left (by decide)
    exact sameCoefficients_coefUpdate P (u := { u with fq := fclamp x (qMin P) (qMax P) }) distortion

end Store

/-! ### The commands that are not refused (R186, R187) -/

section FilterCommands

variable (P : OpenParams) {a b : BitVec 8} {i : Fid} (s : State)

theorem filterConfig_of_codes {k : FilterKind} (index : fidOf P a = some i) (code : kindOf b = some k) :
    filterConfig P a b s =
      respondOk (setFilter i (coefUpdate P (configureUnit k s.block.filters[i])) s) := by
  simp only [filterConfig, index, code]

theorem filterParam_of_codes {p : FilterParam} {x : F64} (index : fidOf P a = some i)
    (code : filterParamOf b = some p) (accepted : filterOperandOk p x = true) :
    filterParam P a b x s = respondOk (setFilter i (storeParam P p x s.block.filters[i]) s) := by
  simp only [filterParam, index, code, accepted, if_true]

end FilterCommands

/-! ### A step of a distortion unit (R191, R196) -/

theorem filterApply_of_distortion (P : OpenParams) {u : FilterUnit} (distortion : u.kind = .distortion)
    (x : F64) : filterApply P u x = (distShape P u.flevel x, u) := by
  simp only [filterApply, distortion, distStep]

/-! ### The obligations on the filter units -/

/-- Settles O46: the unit written is the configured one after its coefficient update. -/
theorem fcfgConfiguresUnit : Obligations.FcfgConfiguresUnit := by
  unfold Obligations.FcfgConfiguresUnit
  intro s a b i names inRange inTable
  have index : fidOf openParams a = some i := (fidOf_eq_some openParams a i).mpr ⟨names, inRange⟩
  obtain ⟨k, code⟩ := kindOf_of_lt inTable
  have named : b.toNat = kindCode k := (kindOf_eq_some b k).mp code
  refine ⟨coefUpdate openParams (configureUnit k s.block.filters[i]),
    congrArg Host.Outcome.next (filterConfig_of_codes openParams s index code), ?kind,
    coefUpdate_x1 _ _, coefUpdate_x2 _ _, coefUpdate_y1 _ _, coefUpdate_y2 _ _,
    coefUpdate_ffs _ _, coefUpdate_ffreq _ _, coefUpdate_fq _ _, coefUpdate_flevel _ _, ?biquad, ?distortion⟩
  case kind =>
    rw [coefUpdate_kind, named]
    cases k <;> rfl
  case biquad =>
    intro below
    have biquad : k ≠ .distortion := fun same =>
      absurd ((toNat_eq_kindCode_iff code .distortion).mpr same) (Nat.ne_of_lt below)
    exact hasCoefficients_coefUpdate openParams (u := configureUnit k _) biquad
  case distortion =>
    intro three
    have distortion : k = .distortion := (toNat_eq_kindCode_iff code .distortion).mp three
    exact sameCoefficients_coefUpdate openParams (u := configureUnit k _) distortion

/-- Settles O47: the operand is accepted, and the selector tells which parameter the unit written has changed. -/
theorem fparamStoresParameter : Obligations.FparamStoresParameter := by
  unfold Obligations.FparamStoresParameter
  intro s a b x i names inRange inTable finite positive
  have index : fidOf openParams a = some i := (fidOf_eq_some openParams a i).mpr ⟨names, inRange⟩
  obtain ⟨p, code⟩ := filterParamOf_of_lt inTable
  have selects : ∀ q, b = paramSelector q ↔ p = q := eq_paramSelector_iff code
  have accepted : filterOperandOk p x = true :=
    (filterOperandOk_iff p x).mpr ⟨finite, fun ffs => positive ((selects .ffs).mpr ffs)⟩
  refine ⟨storeParam openParams p x s.block.filters[i],
    congrArg Host.Outcome.next (filterParam_of_codes openParams s index code accepted),
    storeParam_kind _ _ _ _, storeParam_x1 _ _ _ _, storeParam_x2 _ _ _ _,
    storeParam_y1 _ _ _ _, storeParam_y2 _ _ _ _, ?ffs, ?ffreq, ?fq, ?flevel, ?recomputed, ?kept⟩
  case ffs => exact (storeParam_ffs _ _ _ _).trans (if_congr (selects .ffs).symm rfl rfl)
  case ffreq => exact (storeParam_ffreq _ _ _ _).trans (if_congr (selects .ffreq).symm rfl rfl)
  case fq => exact (storeParam_fq _ _ _ _).trans (if_congr (selects .fq).symm rfl rfl)
  case flevel => exact (storeParam_flevel _ _ _ _).trans (if_congr (selects .flevel).symm rfl rfl)
  case recomputed =>
    rintro ⟨notLevel, biquad⟩
    exact hasCoefficients_storeParam openParams x (mt (selects .flevel).mpr notLevel) biquad
  case kept =>
    intro kept
    exact sameCoefficients_storeParam openParams x (kept.imp_left (selects .flevel).mp)

/-- Settles O48: each kind takes its own step. -/
theorem filterStep : Obligations.FilterStep := by
  unfold Obligations.FilterStep
  refine fun P u x => ⟨fun biquad => ?_, fun distortion => filterApply_of_distortion P distortion x⟩
  rw [filterApply_of_biquad P biquad]
  exact ⟨rfl, rfl⟩

end Sys2Proof.Machine

/-! PROOFS. Preset staging and load (R201 to R213): the cycle test as the existence of a cycle, the state in
which each staging command answers where it is not refused, and `Validate` as the first of the six checks
that fails. -/

namespace Sys2Proof.Machine

open Sys2Proof Relation

/-! ### The cycle test ends within 36 rounds (R213) -/

/-- Without a cycle every set of operators with a member has one that no other of them modulates. -/
theorem exists_unmodulated {mods : Vector OpSet maxOps} (acyclic : ¬ Cyclic mods) {left : OpSet} {o : Op}
    (mem : inSet left o = true) :
    ∃ p, inSet left p = true ∧ ¬ ∃ m, Edge mods m p ∧ inSet left m = true := by
  have : IsTrans Op (TransGen (Edge mods)) := ⟨fun _ _ _ => TransGen.trans⟩
  have : Std.Irrefl (TransGen (Edge mods)) := ⟨fun p cycle => acyclic ⟨p, cycle⟩⟩
  obtain ⟨p, p_mem, first⟩ := (Finite.wellFounded_of_trans_of_irrefl (TransGen (Edge mods))).has_min
    {p | inSet left p = true} ⟨o, mem⟩
  exact ⟨p, p_mem, fun ⟨m, edge, m_mem⟩ => first m m_mem (.single edge)⟩

theorem opSet_eq_zero_iff (set : OpSet) : set = 0 ↔ ∀ o, inSet set o = false :=
  ⟨fun empty o => by rw [empty, inSet_zero],
    fun none => opSet_ext _ _ fun o => (none o).trans (inSet_zero o).symm⟩

theorem opSet_eq_zero_or_mem (set : OpSet) : set = 0 ∨ ∃ o, inSet set o = true := by
  by_cases mem : ∃ o, inSet set o = true
  · exact .inr mem
  · exact .inl ((opSet_eq_zero_iff set).mpr (by simpa using mem))

theorem inSet_of_inSet_pruneRound (mods : Vector OpSet maxOps) (left : OpSet) (o : Op)
    (kept : inSet (pruneRound mods left) o = true) : inSet left o = true :=
  ((inSet_pruneRound mods left o).mp kept).1

/-- Without a cycle each round deletes an operator while one is left. -/
theorem length_members_pruneRound {mods : Vector OpSet maxOps} (acyclic : ¬ Cyclic mods) (left : OpSet) :
    (members (pruneRound mods left)).length ≤ (members left).length - 1 := by
  obtain rfl | ⟨o, mem⟩ := opSet_eq_zero_or_mem left
  · have sublist := members_sublist (inSet_of_inSet_pruneRound mods 0)
    rw [members_zero] at sublist ⊢
    exact sublist.length_le
  · obtain ⟨p, p_mem, unmodulated⟩ := exists_unmodulated acyclic mem
    have deleted : inSet (pruneRound mods left) p = false :=
      Bool.eq_false_iff.mpr fun kept => unmodulated ((inSet_pruneRound mods left p).mp kept).2
    exact Nat.le_sub_one_of_lt (length_members_lt (inSet_of_inSet_pruneRound mods left) p deleted p_mem)

/-- Without a cycle `n` rounds delete every operator when at most `n` are left. -/
theorem pruneRounds_eq_zero {mods : Vector OpSet maxOps} (acyclic : ¬ Cyclic mods) (n : Nat) (left : OpSet)
    (enough : (members left).length ≤ n) : pruneRounds mods n left = 0 := by
  induction n generalizing left with
  | zero =>
    refine (opSet_eq_zero_iff left).mpr fun o => Bool.eq_false_iff.mpr fun mem => ?_
    exact absurd (List.length_pos_of_mem ((mem_members left o).mpr mem)) (Nat.not_lt.mpr enough)
  | succ n ih =>
    exact ih _ ((length_members_pruneRound acyclic left).trans (Nat.sub_le_of_le_add enough))

/-- Settles O20: the operators on a cycle are never deleted, and without a cycle every round deletes one. -/
theorem cycleTestFindsExactlyCycles : Obligations.CycleTestFindsExactlyCycles := by
  unfold Obligations.CycleTestFindsExactlyCycles
  intro mods
  constructor
  · intro found
    by_contra acyclic
    exact of_decide_eq_true found (pruneRounds_eq_zero acyclic maxOps _ (length_members_le _))
  · intro cyclic
    by_contra passed
    exact not_cyclic_of_hasCycle mods (Bool.eq_false_iff.mpr passed) cyclic

/-! ### The staging commands that are not refused (R201 to R208) -/

section Staging

variable {a b : BitVec 8} {m o : Op} (s : State)

theorem stageCount_of_index {n : BitVec 6} (index : countOf a = some n) :
    stageCount a s = respondOk (setStaged { s.block.staged with count := n } s) := by
  simp only [stageCount, index]

theorem stageCarrier_of_index (index : opOf a = some o) :
    stageCarrier a s =
      respondOk (setStaged { s.block.staged with carriers := s.block.staged.carriers ||| opBit o } s) := by
  simp only [stageCarrier, index]

theorem stageFeedback_of_indices (source : opOf a = some m) (target : opOf b = some o) :
    stageFeedback a b s =
      respondOk (setStaged { s.block.staged with fbSource := BitVec.ofNat 6 m.val,
                                                 fbTarget := BitVec.ofNat 6 o.val } s) := by
  simp only [stageFeedback, source, target]

theorem stageEdge_of_indices (modulator : opOf a = some m) (target : opOf b = some o) :
    stageEdge a b s = respondOk (setStaged (addEdge s.block.staged m o) s) := by
  simp only [stageEdge, modulator, target]

theorem stageInt_of_codes {f : IntField} (index : opOf a = some o) (field : intFieldOf b = some f)
    (x : BitVec 64) :
    stageInt a b x s =
      respondOk (setStagedRecord o (storeClamped s.block.staged.records[o] f x.toInt) s) := by
  simp only [stageInt, index, field]

theorem stageReal_of_codes {f : RealField} {x : F64} (index : opOf a = some o)
    (field : realFieldOf b = some f) (finite : isFinite x = true) :
    stageReal a b x s = respondOk (setStagedRecord o (storeReal s.block.staged.records[o] f x) s) := by
  simp only [stageReal, index, field, finite, if_true]

end Staging

/-! ### The parts of a preset that they write -/

theorem toNat_ofNat_op (o : Op) : (BitVec.ofNat 6 o.val).toNat = o.val := by
  have lt : o.val < 36 := o.isLt
  rw [BitVec.toNat_ofNat]
  omega

theorem hasEdge_addEdge (pr : Preset) (m o m' o' : Op) :
    hasEdge (addEdge pr m o).mods m' o' =
      (hasEdge pr.mods m' o' || (decide (m' = m) && decide (o' = o))) := by
  rw [hasEdge, hasEdge, addEdge, getElem_set_fin]
  by_cases column : o' = o
  · subst column
    simp [inSet_or, inSet_opBit]
  · simp [column]

theorem readInt_storeClamped (r : OpRecord) (f : IntField) (x : Int) :
    readInt (storeClamped r f x) f = iclamp x (intDomain f).1 (intDomain f).2 := by
  obtain ⟨low, high⟩ := iclamp_bounds x _ _ (intDomain_ordered f)
  exact readInt_storeInt r f _ low high

/-! ### The obligations on the staging commands -/

/-- Settles O54: each command writes its part of the staged preset; a carrier or an edge is added to those
there are. -/
theorem stagingWritesTopology : Obligations.StagingWritesTopology := by
  unfold Obligations.StagingWritesTopology
  intro s a b m o a_names b_names
  have first : opOf a = some m := (opOf_eq_some a m).mpr a_names
  have second : opOf b = some o := (opOf_eq_some b o).mpr b_names
  refine ⟨rfl, ?count, ?carrier, ?feedback, ?edge⟩
  case count =>
    intro n le
    obtain ⟨count, index⟩ := Option.ne_none_iff_exists'.mp
      (mt (countOf_eq_none n).mp (Nat.not_lt.mpr le))
    exact ⟨count, ((countOf_eq_some n count).mp index).1.symm,
      congrArg Host.Outcome.next (stageCount_of_index s index)⟩
  case carrier =>
    exact ⟨_, congrArg Host.Outcome.next (stageCarrier_of_index s first),
      fun c => by rw [inSet_or, inSet_opBit]⟩
  case feedback =>
    exact ⟨_, _, toNat_ofNat_op m, toNat_ofNat_op o,
      congrArg Host.Outcome.next (stageFeedback_of_indices s first second)⟩
  case edge =>
    exact ⟨(addEdge s.block.staged m o).mods,
      congrArg Host.Outcome.next (stageEdge_of_indices s first second),
      hasEdge_addEdge s.block.staged m o⟩

/-- Settles O56: the clamped operand fits the field, and the store leaves the other fields. -/
theorem popiStoresClampedInteger : Obligations.PopiStoresClampedInteger := by
  unfold Obligations.PopiStoresClampedInteger
  intro s a sel x o f names field
  have index : opOf a = some o := (opOf_eq_some a o).mpr names
  exact ⟨storeClamped s.block.staged.records[o] f x.toInt,
    congrArg Host.Outcome.next (stageInt_of_codes s index field x),
    readInt_storeClamped _ f x.toInt, fun g other => readInt_storeInt_of_ne _ f g _ other,
    storeInt_ratio _ f _, storeInt_bpCenter _ f _⟩

/-- Settles O57, selector by selector. -/
theorem popfStoresReal : Obligations.PopfStoresReal := by
  unfold Obligations.PopfStoresReal
  intro s a sel x o names inTable finite
  have index : opOf a = some o := (opOf_eq_some a o).mpr names
  have selector : sel = 0 ∨ sel = 1 := by bv_omega
  obtain rfl | rfl := selector
  case inl =>
    exact ⟨storeReal s.block.staged.records[o] .ratio x,
      congrArg Host.Outcome.next (stageReal_of_codes s index rfl finite),
      readInt_storeReal _ .ratio x, fun _ => ⟨rfl, rfl⟩, fun other => absurd other (by decide)⟩
  case inr =>
    exact ⟨storeReal s.block.staged.records[o] .bpCenter x,
      congrArg Host.Outcome.next (stageReal_of_codes s index rfl finite),
      readInt_storeReal _ .bpCenter x, fun other => absurd other (by decide), fun _ => ⟨rfl, rfl⟩⟩

/-! ### `Validate` (R211) -/

open Classical in
/-- The code of the first fault in a list that is present, and `ok` where none is. -/
noncomputable def firstFault : List (Code × Prop) → Code
  | [] => .ok
  | (code, fault) :: rest => if fault then code else firstFault rest

theorem firstFault_of_split {before after : List (Code × Prop)} {code : Code} {fault : Prop}
    (present : fault) (absent : ∀ c ∈ before, ¬ c.2) :
    firstFault (before ++ (code, fault) :: after) = code := by
  induction before with
  | nil => exact if_pos present
  | cons c rest ih =>
    obtain ⟨c_absent, rest_absent⟩ := List.forall_mem_cons.mp absent
    exact (if_neg c_absent).trans (ih rest_absent)

theorem firstFault_of_absent {faults : List (Code × Prop)} (absent : ∀ c ∈ faults, ¬ c.2) :
    firstFault faults = .ok := by
  induction faults with
  | nil => rfl
  | cons c rest ih =>
    obtain ⟨c_absent, rest_absent⟩ := List.forall_mem_cons.mp absent
    exact (if_neg c_absent).trans (ih rest_absent)

theorem not_allBelow_iff (set : OpSet) (n : BitVec 6) :
    (!allBelow set n) = true ↔ ∃ c : Op, inSet set c = true ∧ n.toNat ≤ c.val := by
  rw [Bool.not_eq_true', ← Bool.not_eq_true, allBelow_iff]
  push Not
  rfl

theorem edgesBelow_of_edge_lt (pr : Preset)
    (below : ∀ m o : Op, Edge pr.mods m o → m.val < pr.count.toNat ∧ o.val < pr.count.toNat) :
    edgesBelow pr = true := by
  refine List.all_eq_true.mpr fun o _ => ?_
  obtain none | ⟨m, edge⟩ := opSet_eq_zero_or_mem (modSet pr o)
  · simp [none]
  · have modulators : allBelow (modSet pr o) pr.count = true :=
      (allBelow_iff _ _).mpr fun m edge => (below m o edge).1
    simp [modulators, (below m o edge).2]

theorem not_edgesBelow_iff (pr : Preset) :
    (!edgesBelow pr) = true ↔
      ∃ m o : Op, Edge pr.mods m o ∧ (pr.count.toNat ≤ m.val ∨ pr.count.toNat ≤ o.val) := by
  have below : edgesBelow pr = true ↔
      ∀ m o : Op, Edge pr.mods m o → m.val < pr.count.toNat ∧ o.val < pr.count.toNat :=
    ⟨edge_lt_of_edgesBelow pr, edgesBelow_of_edge_lt pr⟩
  rw [Bool.not_eq_true', ← Bool.not_eq_true, below]
  simp only [not_forall, not_and_or, Nat.not_lt, exists_prop]

/-- A test that comes before others gives the code of its fault where the fault is present. -/
theorem ite_eq_firstFault {test fault : Prop} [Decidable test] {code others : Code}
    {rest : List (Code × Prop)} (same : test ↔ fault) (later : others = firstFault rest) :
    (if test then code else others) = firstFault ((code, fault) :: rest) := by
  by_cases present : fault
  · exact (if_pos (same.mpr present)).trans (if_pos present).symm
  · exact (if_neg (mt same.mp present)).trans (later.trans (if_neg present).symm)

/-- The tests of `Validate` are the six conditions of R211, in their order. -/
theorem validate_eq_firstFault (pr : Preset) : validate pr = firstFault (loadFault pr) :=
  ite_eq_firstFault Iff.rfl <|
  ite_eq_firstFault (opSet_eq_zero_iff pr.carriers) <|
  ite_eq_firstFault (not_allBelow_iff pr.carriers pr.count) <|
  ite_eq_firstFault (not_edgesBelow_iff pr) <|
  ite_eq_firstFault Iff.rfl <|
  ite_eq_firstFault (cycleTestFindsExactlyCycles pr.mods) rfl

/-! ### `LOADPRESET` (R210, R212) -/

theorem loadFault_code_ne_ok (pr : Preset) : ∀ c ∈ loadFault pr, c.1 ≠ .ok := by
  simp [loadFault]

theorem loadPreset_of_fault {s : State} (fault : validate s.block.staged ≠ .ok) :
    loadPreset s = refuse (validate s.block.staged) s := by
  unfold loadPreset
  split
  · rename_i valid
    exact absurd valid fault
  · rfl

theorem loadPreset_of_valid {s : State} (valid : validate s.block.staged = .ok) :
    loadPreset s = respondOk { s with block := commit s.block } := by
  simp only [loadPreset, valid]

theorem commitVoices_eq_replicate (voices : Vector VoiceState numVoices) :
    commitVoices voices = Vector.replicate numVoices VoiceState.reset :=
  Vector.ext fun i bound => by simp [commitVoices, commitVoice_eq_reset]

/-- Settles O58: `Validate` gives the code of the first fault, which is no `ok`. -/
theorem loadRefusedByFirstFailingCheck : Obligations.LoadRefusedByFirstFailingCheck := by
  unfold Obligations.LoadRefusedByFirstFailingCheck
  intro s before after code fault faults present absent
  have checked : validate s.block.staged = code := by
    rw [validate_eq_firstFault, faults, firstFault_of_split present absent]
  have refused : validate s.block.staged ≠ .ok :=
    checked ▸ loadFault_code_ne_ok s.block.staged (code, fault) (by simp [faults])
  exact congrArg Host.Outcome.next (checked ▸ loadPreset_of_fault refused)

/-- Settles O59: `Commit` empties the chain and makes every voice cold. -/
theorem loadCommitsStagedPreset : Obligations.LoadCommitsStagedPreset := by
  unfold Obligations.LoadCommitsStagedPreset
  intro s absent
  have valid : validate s.block.staged = .ok :=
    (validate_eq_firstFault _).trans (firstFault_of_absent absent)
  change Host.Outcome.next (loadPreset s) = _
  rw [loadPreset_of_valid valid, commit, commitVoices_eq_replicate]
  rfl

end Sys2Proof.Machine

/-! PROOFS. Why a command answers with the code it answers with (R220 to R229): the verdict on a command, in the
order of R229, and the obligations on the response codes that are read off from it. -/

namespace Sys2Proof.Machine

open Sys2Proof

/-! ### The response word tells its code (R90, R91) -/

theorem codeByte_injective : Function.Injective codeByte := by
  intro c d
  cases c <;> cases d <;> decide

theorem responseWord_inj {c c' : Code} {d d' : BitVec 64} (same : responseWord c d = responseWord c' d') :
    c = c' ∧ d = d' := by
  have parts := responseWordLayout.1
  refine ⟨codeByte_injective ?_, ?_⟩
  · rw [← (parts c d).1, same, (parts c' d').1]
  · rw [← (parts c d).2, same, (parts c' d').2]

/-- One response given to the same list is given with one code only. -/
theorem code_unique {out given : List ResponseWord} {c c' : Code} {d d' : BitVec 64}
    (first : given = out ++ [responseWord c d]) (second : given = out ++ [responseWord c' d']) : c = c' :=
  (responseWord_inj (List.singleton_inj.mp (List.append_cancel_left (first.symm.trans second)))).1

/-- Settles O8: the only other answer than a refusal is `OK`. -/
theorem refusedCommandChangesNothing : Obligations.RefusedCommandChangesNothing := by
  unfold Obligations.RefusedCommandChangesNothing
  intro i s t code data run answer notOk
  cases exec_replies i s t run with
  | refused given => rw [code_unique answer (refuse_outbox given s)]; rfl
  | done inbox outbox =>
    exact absurd (code_unique answer (by rw [respondOk_outbox, outbox])) notOk
  | read given reads inbox outbox =>
    exact absurd (code_unique answer (by rw [respond_outbox, outbox])) notOk

/-! ### The verdict on a command (R229) -/

/-- The code with which the command `i` answers in the state `s`, and why: the index checks come before the
operand check, and that one before the check for a preset. -/
inductive Verdict (i : Instr) (s : State) : Code → Prop
  | badIndex (cause : badIndexCause i) : Verdict i s .badIndex
  | badOperand (indices : ¬ badIndexCause i) (cause : badOperandCause i) : Verdict i s .badOperand
  | noPreset {a f} (command : i = .keyon a f) (indices : ¬ badIndexCause i)
      (operand : ¬ badOperandCause i) (unloaded : s.block.active.count = 0) : Verdict i s .noPreset
  | load {code} (command : i = .loadpreset) (listed : code ∈ codesOf .loadpreset) : Verdict i s code
  | ok (indices : ¬ badIndexCause i) (operand : ¬ badOperandCause i) : Verdict i s .ok

/-- The state `t` is `s` after an answer of the command `i`, for whose code there is a verdict. -/
def Decided (i : Instr) (s t : State) : Prop :=
  ∃ code data, t.outbox = s.outbox ++ [responseWord code data] ∧ Verdict i s code

section Decided

variable {i : Instr} {s u : State}

theorem Verdict.refused {code : Code} (verdict : Verdict i s code) : Decided i s (refuse code s) :=
  ⟨code, 0, rfl, verdict⟩

theorem Decided.badIndex (cause : badIndexCause i) : Decided i s (refuse .badIndex s) :=
  (Verdict.badIndex cause).refused

theorem Decided.badOperand (indices : ¬ badIndexCause i) (cause : badOperandCause i) :
    Decided i s (refuse .badOperand s) := (Verdict.badOperand indices cause).refused

theorem Decided.read {data : BitVec 64} (indices : ¬ badIndexCause i) (operand : ¬ badOperandCause i)
    (outbox : u.outbox = s.outbox) : Decided i s (respond .ok data u) :=
  ⟨.ok, data, by rw [respond_outbox, outbox], .ok indices operand⟩

theorem Decided.done (indices : ¬ badIndexCause i) (operand : ¬ badOperandCause i)
    (outbox : u.outbox = s.outbox) : Decided i s (respondOk u) := Decided.read indices operand outbox

end Decided

/-! ### What the checks of a command find -/

section Checks

variable {α β : Type} {x : Option α} {y : Option β} {p q : Prop}

theorem not_of_found (fails : x = none ↔ p) {found : α} (passed : x = some found) : ¬ p :=
  mt fails.mpr (Option.ne_none_iff_exists'.mpr ⟨found, passed⟩)

theorem not_or_of_found (fails : x = none ↔ p) (fails' : y = none ↔ q) {found : α} {found' : β}
    (passed : x = some found) (passed' : y = some found') : ¬ (p ∨ q) :=
  not_or.mpr ⟨not_of_found fails passed, not_of_found fails' passed'⟩

theorem or_of_missing (fails : x = none ↔ p) (fails' : y = none ↔ q)
    (missing : ∀ found found', x = some found → y = some found' → False) : p ∨ q := by
  rw [← fails, ← fails']
  cases x with
  | none => exact .inl rfl
  | some found =>
    cases y with
    | none => exact .inr rfl
    | some found' => exact (missing found found' rfl rfl).elim

end Checks

/-- The operand check of `FPARAM` fails on the causes of R224. -/
theorem badOperandCause_fparam_iff {sel : BitVec 8} {p : FilterParam} (code : filterParamOf sel = some p)
    (a : BitVec 8) (x : F64) : badOperandCause (.fparam a sel x) ↔ ¬ filterOperandOk p x = true := by
  have ffs : sel = 0 ↔ p = .ffs := eq_paramSelector_iff code .ffs
  rw [filterOperandOk_iff, ← ffs]
  simp only [badOperandCause, not_and_or, Classical.not_imp, Bool.not_eq_true]

theorem firstFault_mem (faults : List (Code × Prop)) :
    firstFault faults = .ok ∨ firstFault faults ∈ faults.map Prod.fst := by
  induction faults with
  | nil => exact .inl rfl
  | cons c rest ih =>
    rw [firstFault, List.map_cons, List.mem_cons]
    split
    · exact .inr (.inl rfl)
    · exact ih.imp_right .inr

theorem validate_mem_codesOf {pr : Preset} (invalid : validate pr ≠ .ok) :
    validate pr ∈ codesOf .loadpreset := by
  rw [validate_eq_firstFault] at invalid ⊢
  exact (firstFault_mem (loadFault pr)).resolve_left invalid

/-! ### Every command's answer has a verdict -/

section Commands

variable (s : State)

theorem keyOn_decided (a : BitVec 8) (f : F64) : Decided (.keyon a f) s (keyOn openParams a f s) := by
  unfold keyOn
  split
  next missing => exact .badIndex ((voiceOf_eq_none a).mp missing)
  next v index =>
    have indices : ¬ badIndexCause (.keyon a f) := not_of_found (voiceOf_eq_none a) index
    split
    next refused => exact .badOperand indices (by simpa using refused : isFinite f = false)
    next accepted =>
      have operand : ¬ badOperandCause (.keyon a f) := by simpa [badOperandCause] using accepted
      split
      next unloaded => exact (Verdict.noPreset rfl indices operand unloaded).refused
      next => exact .done indices operand rfl

theorem keyOff_decided (a : BitVec 8) : Decided (.keyoff a) s (keyOff openParams a s) := by
  unfold keyOff
  split
  next missing => exact .badIndex ((voiceOf_eq_none a).mp missing)
  next v index => exact .done (not_of_found (voiceOf_eq_none a) index) id rfl

theorem gainCommand_decided (x : F64) : Decided (.setgain x) s (gainCommand x s) := by
  unfold gainCommand
  split
  next accepted => exact .done id (by simpa [badOperandCause] using accepted) rfl
  next refused => exact .badOperand id (by simpa using refused : isFinite x = false)

theorem envRead_decided (a b : BitVec 8) : Decided (.envrd a b) s (envRead a b s) := by
  unfold envRead
  split
  next voice operator =>
    exact .read (not_or_of_found (voiceOf_eq_none a) (opOf_eq_none b) voice operator) id rfl
  next missing => exact .badIndex (or_of_missing (voiceOf_eq_none a) (opOf_eq_none b) missing)

theorem envState_decided (a b : BitVec 8) : Decided (.envst a b) s (envState a b s) := by
  unfold envState
  split
  next voice operator =>
    exact .read (not_or_of_found (voiceOf_eq_none a) (opOf_eq_none b) voice operator) id rfl
  next missing => exact .badIndex (or_of_missing (voiceOf_eq_none a) (opOf_eq_none b) missing)

theorem voiceActive_decided (a : BitVec 8) : Decided (.vact a) s (voiceActive a s) := by
  unfold voiceActive
  split
  next missing => exact .badIndex ((voiceOf_eq_none a).mp missing)
  next v index => exact .read (not_of_found (voiceOf_eq_none a) index) id rfl

theorem filterConfig_decided (a b : BitVec 8) : Decided (.fcfg a b) s (filterConfig openParams a b s) := by
  unfold filterConfig
  split
  next index code =>
    exact .done (not_or_of_found (fidOf_eq_none openParams a) (kindOf_eq_none b) index code) id rfl
  next missing => exact .badIndex (or_of_missing (fidOf_eq_none openParams a) (kindOf_eq_none b) missing)

theorem filterParam_decided (a sel : BitVec 8) (x : F64) :
    Decided (.fparam a sel x) s (filterParam openParams a sel x s) := by
  unfold filterParam
  split
  next index code =>
    have indices : ¬ badIndexCause (.fparam a sel x) :=
      not_or_of_found (fidOf_eq_none openParams a) (filterParamOf_eq_none sel) index code
    split
    next accepted =>
      exact .done indices (mt (badOperandCause_fparam_iff code a x).mp (not_not.mpr accepted)) rfl
    next refused => exact .badOperand indices ((badOperandCause_fparam_iff code a x).mpr refused)
  next missing =>
    exact .badIndex (or_of_missing (fidOf_eq_none openParams a) (filterParamOf_eq_none sel) missing)

/-- `CHADDSUM` and `CHADDLINK`, given that the command `i` has the filter id alone to check. -/
theorem chainAddCommand_decided (mode : ChainMode) (a : BitVec 8) {i : Instr}
    (index_check : fidOf openParams a = none ↔ badIndexCause i) (operand : ¬ badOperandCause i) :
    Decided i s (chainAddCommand openParams mode a s) := by
  unfold chainAddCommand
  split
  next k index => exact .done (not_of_found index_check index) operand rfl
  next missing => exact .badIndex (index_check.mp missing)

theorem chainRemoveCommand_decided (a : BitVec 8) :
    Decided (.chremove a) s (chainRemoveCommand openParams a s) := by
  unfold chainRemoveCommand
  split
  next k index => exact .done (not_of_found (fidOf_eq_none openParams a) index) id rfl
  next missing => exact .badIndex ((fidOf_eq_none openParams a).mp missing)

theorem chainSwapCommand_decided (a b : BitVec 8) :
    Decided (.chswap a b) s (chainSwapCommand openParams a b s) := by
  unfold chainSwapCommand
  split
  next first second =>
    exact .done (not_or_of_found (fidOf_eq_none openParams a) (fidOf_eq_none openParams b) first second)
      id rfl
  next missing =>
    exact .badIndex (or_of_missing (fidOf_eq_none openParams a) (fidOf_eq_none openParams b) missing)

theorem stageCount_decided (a : BitVec 8) : Decided (.pnops a) s (stageCount a s) := by
  unfold stageCount
  split
  next missing => exact .badIndex ((countOf_eq_none a).mp missing)
  next n index => exact .done (not_of_found (countOf_eq_none a) index) id rfl

theorem stageCarrier_decided (a : BitVec 8) : Decided (.pcarr a) s (stageCarrier a s) := by
  unfold stageCarrier
  split
  next missing => exact .badIndex ((opOf_eq_none a).mp missing)
  next o index => exact .done (not_of_found (opOf_eq_none a) index) id rfl

theorem stageFeedback_decided (a b : BitVec 8) : Decided (.pfbk a b) s (stageFeedback a b s) := by
  unfold stageFeedback
  split
  next source target =>
    exact .done (not_or_of_found (opOf_eq_none a) (opOf_eq_none b) source target) id rfl
  next missing => exact .badIndex (or_of_missing (opOf_eq_none a) (opOf_eq_none b) missing)

theorem stageEdge_decided (a b : BitVec 8) : Decided (.pmod a b) s (stageEdge a b s) := by
  unfold stageEdge
  split
  next modulator target =>
    exact .done (not_or_of_found (opOf_eq_none a) (opOf_eq_none b) modulator target) id rfl
  next missing => exact .badIndex (or_of_missing (opOf_eq_none a) (opOf_eq_none b) missing)

theorem stageInt_decided (a sel : BitVec 8) (x : BitVec 64) :
    Decided (.popi a sel x) s (stageInt a sel x s) := by
  unfold stageInt
  split
  next index field =>
    exact .done (not_or_of_found (opOf_eq_none a) (intFieldOf_eq_none sel) index field) id rfl
  next missing => exact .badIndex (or_of_missing (opOf_eq_none a) (intFieldOf_eq_none sel) missing)

theorem stageReal_decided (a sel : BitVec 8) (x : F64) :
    Decided (.popf a sel x) s (stageReal a sel x s) := by
  unfold stageReal
  split
  next index field =>
    have indices : ¬ badIndexCause (.popf a sel x) :=
      not_or_of_found (opOf_eq_none a) (realFieldOf_eq_none sel) index field
    split
    next accepted => exact .done indices (by simpa [badOperandCause] using accepted) rfl
    next refused => exact .badOperand indices (by simpa using refused : isFinite x = false)
  next missing => exact .badIndex (or_of_missing (opOf_eq_none a) (realFieldOf_eq_none sel) missing)

theorem loadPreset_decided : Decided .loadpreset s (loadPreset s) := by
  by_cases valid : validate s.block.staged = .ok
  · rw [loadPreset_of_valid valid]
    exact .done id id rfl
  · rw [loadPreset_of_fault valid]
    exact (Verdict.load rfl (validate_mem_codesOf valid)).refused

/-- R229: the one inversion of `exec` from which the code of an answer is read off. -/
theorem exec_decided (i : Instr) (t : State) (run : exec i s = .next t) : Decided i s t := by
  cases i with
  | tick => cases run; exact ⟨.ok, _, tick_outbox openParams s, .ok id id⟩
  | keyon a f => cases run; exact keyOn_decided s a f
  | keyoff a => cases run; exact keyOff_decided s a
  | alloff => cases run; exact .done id id (setVoices_outbox _ s)
  | setgain x => cases run; exact gainCommand_decided s x
  | envrd a b => cases run; exact envRead_decided s a b
  | envst a b => cases run; exact envState_decided s a b
  | vact a => cases run; exact voiceActive_decided s a
  | fcfg a b => cases run; exact filterConfig_decided s a b
  | fparam a sel x => cases run; exact filterParam_decided s a sel x
  | chaddsum a => cases run; exact chainAddCommand_decided s .sum a (fidOf_eq_none openParams a) id
  | chaddlink a => cases run; exact chainAddCommand_decided s .link a (fidOf_eq_none openParams a) id
  | chremove a => cases run; exact chainRemoveCommand_decided s a
  | chswap a b => cases run; exact chainSwapCommand_decided s a b
  | chclear => cases run; exact .done id id rfl
  | pclear => cases run; exact .done id id rfl
  | pnops a => cases run; exact stageCount_decided s a
  | pcarr a => cases run; exact stageCarrier_decided s a
  | pfbk a b => cases run; exact stageFeedback_decided s a b
  | pmod a b => cases run; exact stageEdge_decided s a b
  | popi a sel x => cases run; exact stageInt_decided s a sel x
  | popf a sel x => cases run; exact stageReal_decided s a sel x
  | loadpreset => cases run; exact loadPreset_decided s

end Commands

/-! ### What the verdict settles -/

section Codes

variable {i : Instr} {s : State}

/-- The code of an answer has its verdict. -/
theorem verdict_of_answer {t : State} {code : Code} {data : BitVec 64} (run : exec i s = .next t)
    (answer : t.outbox = s.outbox ++ [responseWord code data]) : Verdict i s code := by
  obtain ⟨code', data', given, verdict⟩ := exec_decided s i t run
  exact code_unique answer given ▸ verdict

/-- A command on which no other verdict can be given than the refusal with `code` is refused with it. -/
theorem exec_of_only_verdict {code : Code} (notOk : code ≠ .ok) (only : ∀ c, Verdict i s c → c = code) :
    exec i s = .next (answered s code 0) := by
  obtain ⟨t, run⟩ := exec_next i s
  obtain ⟨given, data, answer, verdict⟩ := exec_decided s i t run
  obtain rfl := only given verdict
  rw [run, refusedCommandChangesNothing i s t given data run answer notOk]

theorem Verdict.eq_badIndex (cause : badIndexCause i) {code : Code} (verdict : Verdict i s code) :
    code = .badIndex := by
  cases verdict with
  | badIndex => rfl
  | badOperand indices => exact absurd cause indices
  | noPreset _ indices => exact absurd cause indices
  | load command => subst command; exact cause.elim
  | ok indices => exact absurd cause indices

theorem Verdict.eq_badOperand (indices : ¬ badIndexCause i) (cause : badOperandCause i) {code : Code}
    (verdict : Verdict i s code) : code = .badOperand := by
  cases verdict with
  | badIndex fault => exact absurd fault indices
  | badOperand => rfl
  | noPreset _ _ operand => exact absurd cause operand
  | load command => subst command; exact cause.elim
  | ok _ operand => exact absurd cause operand

theorem badIndex_mem_codesOf (cause : badIndexCause i) : .badIndex ∈ codesOf i := by
  revert cause
  cases i <;> simp [badIndexCause, codesOf]

theorem badOperand_mem_codesOf (cause : badOperandCause i) : .badOperand ∈ codesOf i := by
  revert cause
  cases i <;> simp [badOperandCause, codesOf]

theorem Verdict.listed {code : Code} (verdict : Verdict i s code) : code = .ok ∨ code ∈ codesOf i := by
  cases verdict with
  | badIndex cause => exact .inr (badIndex_mem_codesOf cause)
  | badOperand _ cause => exact .inr (badOperand_mem_codesOf cause)
  | noPreset command => subst command; exact .inr (by simp [codesOf])
  | load command listed => exact .inr (command ▸ listed)
  | ok => exact .inl rfl

end Codes

/-- Settles O9: an index fault comes before every other check, and no other verdict has this code. -/
theorem badIndexExactlyOnListedCauses : Obligations.BadIndexExactlyOnListedCauses := by
  unfold Obligations.BadIndexExactlyOnListedCauses
  refine fun i s => ⟨fun cause => ?refused, fun t data run answer => ?cause⟩
  case refused => exact exec_of_only_verdict (by decide) fun _ => Verdict.eq_badIndex cause
  case cause =>
    cases verdict_of_answer run answer with
    | badIndex cause => exact cause
    | load _ listed => exact absurd listed (by decide)

/-- Settles O10: an operand fault comes after the index checks alone, and no other verdict has this code. -/
theorem badOperandExactlyOnListedCauses : Obligations.BadOperandExactlyOnListedCauses := by
  unfold Obligations.BadOperandExactlyOnListedCauses
  refine fun i s => ⟨fun cause indices => ?refused, fun t data run answer => ?cause⟩
  case refused => exact exec_of_only_verdict (by decide) fun _ => Verdict.eq_badOperand indices cause
  case cause =>
    cases verdict_of_answer run answer with
    | badOperand indices cause => exact ⟨cause, indices⟩
    | load _ listed => exact absurd listed (by decide)

/-- Settles O11: every verdict has a code of the command's row. -/
theorem codesLimitedToTable : Obligations.CodesLimitedToTable := by
  unfold Obligations.CodesLimitedToTable
  intro i s t run
  obtain ⟨code, data, answer, verdict⟩ := exec_decided s i t run
  exact ⟨code, data, answer, verdict.listed⟩

theorem keyOn_of_unloaded (P : OpenParams) {s : State} {a : BitVec 8} {f : F64} (index : a.toNat < 132)
    (finite : isFinite f = true) (unloaded : s.block.active.count = 0) :
    keyOn P a f s = refuse .noPreset s := by
  have voice : voiceOf a = some ⟨a.toNat, index⟩ := (voiceOf_eq_some a _).mpr rfl
  simp only [keyOn, voice, finite, unloaded, Bool.not_true, Bool.false_eq_true, if_false, if_true]

/-- Settles O12: the check for a preset is the last of `KEYON`, and no other verdict has this code. -/
theorem noPresetExactlyOnUnloadedKeyon : Obligations.NoPresetExactlyOnUnloadedKeyon := by
  unfold Obligations.NoPresetExactlyOnUnloadedKeyon
  refine ⟨fun s a f index finite unloaded => ?refused, fun i s t data run answer => ?cause⟩
  case refused => exact congrArg Host.Outcome.next (keyOn_of_unloaded openParams index finite unloaded)
  case cause =>
    cases verdict_of_answer run answer with
    | noPreset command _ _ unloaded => exact ⟨⟨_, _, command⟩, unloaded⟩
    | load _ listed => exact absurd listed (by decide)

end Sys2Proof.Machine

/-! PROOFS. The first command after reset (R240, R241): a note-off and a sample tick leave the stores at their
reset values. -/

namespace Sys2Proof.Machine

open Sys2Proof

/-! ### A note-off of a cold voice (R109, R156, R157) -/

section Cold

variable (P : OpenParams) (s : State)

theorem stopVoice_reset (pr : Preset) : stopVoice P pr VoiceState.reset = VoiceState.reset := by
  have ops : stopOps P pr VoiceState.reset.ops = VoiceState.reset.ops := by
    refine Vector.ext fun k bound => ?_
    have slot : (stopOps P pr VoiceState.reset.ops)[(⟨k, bound⟩ : Op)] =
        VoiceState.reset.ops[(⟨k, bound⟩ : Op)] := by
      rw [stopOps, getElem_mapReach, VoiceState.reset_ops]
      exact ite_self _
    exact slot
  rw [stopVoice, ops]

theorem keyOff_of_cold {a : BitVec 8} {v : Voice} (index : voiceOf a = some v)
    (cold : s.block.voices[v] = VoiceState.reset) : keyOff P a s = respondOk s := by
  have same : s.block.voices.set v.val VoiceState.reset = s.block.voices := by
    rw [← cold]
    exact Vector.set_getElem_self _
  rw [keyOff_of_index P s index, cold, stopVoice_reset, setVoice, same]

theorem allOff_of_cold (cold : ∀ v : Voice, s.block.voices[v] = VoiceState.reset) :
    allOff P s = respondOk s := by
  have same : stopVoices P s.block.active s.block.voices = s.block.voices := by
    refine Vector.ext fun k bound => ?_
    have voice : (stopVoices P s.block.active s.block.voices)[(⟨k, bound⟩ : Voice)] =
        s.block.voices[(⟨k, bound⟩ : Voice)] := by
      rw [stopVoices, getElem_ofFn_fin, cold, stopVoice_reset]
    exact voice
  rw [allOff, same, setVoices]

/-! ### A sample tick with nothing to do (R150, R176) -/

theorem fMul_posZero_left {x : F64} (finite : isFinite x = true) (sign : signOf x = false) :
    fMul P posZero x = posZero := by
  have nothing : unitsOf posZero = 0 := (unitsOf_eq_zero_iff posZero).mpr (by decide)
  rw [fMul_finite P posZero x (by decide) finite, nothing, zero_mul, roundUnits, roundMagnitude_zero, sign]
  decide

theorem tick_of_silent_unity (silent : ∀ v : Voice, s.block.voices[v].active = false)
    (unity : s.block.gain = f64One) (noChain : s.block.chain = []) : tick P s = respond .ok posZero s := by
  have mix : fMul P posZero f64One = posZero := fMul_posZero_left P (by decide) (by decide)
  rw [tick_of_all_inactive P s silent, unity, noChain, mix]
  rfl

end Cold

/-! ### The obligation on the first command -/

/-- Settles O14: every voice is cold, the chain and both presets are empty, and the gain is 1.0. -/
theorem firstCommandAfterReset : Obligations.FirstCommandAfterReset := by
  unfold Obligations.FirstCommandAfterReset
  refine ⟨fun s => ⟨rfl, rfl⟩, fun s reset => ?_⟩
  have cold (v : Voice) : s.block.voices[v] = VoiceState.reset := by
    rw [reset]
    exact Block.reset_voices openParams v
  have silent (v : Voice) : s.block.voices[v].active = false := by
    rw [cold]
    rfl
  have unloaded : s.block.active.count = 0 := by
    rw [reset]
    rfl
  have unstaged : s.block.staged.count = 0 := by
    rw [reset]
    rfl
  have unity : s.block.gain = f64One := by
    rw [reset]
    rfl
  have noChain : s.block.chain = [] := by
    rw [reset]
    rfl
  refine ⟨congrArg Host.Outcome.next (tick_of_silent_unity openParams s silent unity noChain),
    congrArg Host.Outcome.next (allOff_of_cold openParams s cold),
    loadRefusedByFirstFailingCheck s [] _ _ _ rfl unstaged (by simp), fun a b f voice_lt op_lt finite => ?_⟩
  obtain ⟨v, voice⟩ : ∃ v, voiceOf a = some v := ⟨⟨a.toNat, voice_lt⟩, (voiceOf_eq_some a _).mpr rfl⟩
  obtain ⟨o, operator⟩ : ∃ o, opOf b = some o := ⟨⟨b.toNat, op_lt⟩, (opOf_eq_some b _).mpr rfl⟩
  have slot : slotAt s o v = OpSlot.reset := by rw [slotAt, cold, VoiceState.reset_ops]
  refine ⟨congrArg Host.Outcome.next (keyOn_of_unloaded openParams voice_lt finite unloaded),
    congrArg Host.Outcome.next (keyOff_of_cold openParams s voice (cold v)), congrArg Host.Outcome.next ?state,
    congrArg Host.Outcome.next ?amplitude, congrArg Host.Outcome.next ?active⟩
  case state => exact (envState_of_index s voice operator).trans (by rw [slot]; rfl)
  case amplitude => exact (envRead_of_index s voice operator).trans (by rw [slot]; rfl)
  case active => exact (voiceActive_of_index s voice).trans (by rw [silent]; rfl)

end Sys2Proof.Machine
